-- ==== Sys2Proof/Word.lean ====
section
/-! DEFINITION. The bit-vector types of the block. Counters and indices are naturals (spec R10); only what
the spec calls a pattern, a set of lines or an event word is a bit vector. -/

namespace Sys2Proof

/-- A segment pattern, or one memory entry: 8 bits (R8 `SEG_W`, R53). Bit i is segment line i, 1 = lit. -/
abbrev Byte := BitVec 8

/-- The five digit-enable lines (R27): bit i enables the position that shows `buf[i]`. -/
abbrev DigitLines := BitVec 5

/-- The event word `ev[3:0]` (R71): `h`, `m`, and the two bits of `kind`. -/
abbrev EventWord := BitVec 4

end Sys2Proof
end

