-- ==== Sys2Proof/Syntax.lean ====
section
/-! DEFINITION. The seven events (spec R4, R74), one constructor per row of the opcode table. -/

namespace Sys2Proof

/-- One served event. No event has an operand of its own: `m` and `h` are ignored outside BTNTICK (R76) and select
among the four BTNTICK rows inside it (R74). -/
inductive Instr where
  /-- `IDLE` (R180). -/
  | idle
  /-- `CLKTICK` (R102). -/
  | clktick
  /-- `SCANTICK` (R140). -/
  | scantick
  /-- `BTNTICK.NONE` (R162). -/
  | btntickNone
  /-- `BTNTICK.MIN` (R163). -/
  | btntickMin
  /-- `BTNTICK.HR` (R164). -/
  | btntickHr
  /-- `BTNTICK.BOTH` (R165). -/
  | btntickBoth
deriving DecidableEq, Repr

end Sys2Proof
end

