-- ==== Sys2Proof/Machine/Operands.lean ====
section
/-! DEFINITION. The fields of the event word (spec R71, R72) and what the two button levels select (R161). -/

namespace Sys2Proof.Machine

/-- `kind` = `ev[1:0]` (R71). -/
def kindField (w : EventWord) : BitVec 2 := w.extractLsb' 0 2

/-- `m` = `ev[2]`: the minutes-edit button, 1 = asserted (R71, R72). -/
def mField (w : EventWord) : Bool := w.getLsbD 2

/-- `h` = `ev[3]`: the hours-edit button, 1 = asserted (R71, R72). -/
def hField (w : EventWord) : Bool := w.getLsbD 3

/-- `{h, m, kind}` (R71). -/
def eventWord (h m : Bool) (kind : BitVec 2) : EventWord := BitVec.ofBool h ++ BitVec.ofBool m ++ kind

/-- The dispatch table of R161: which button event the pair of levels is. -/
def buttonEvent (m h : Bool) : Instr :=
  match m, h with
  | false, false => .btntickNone
  | true, false => .btntickMin
  | false, true => .btntickHr
  | true, true => .btntickBoth

end Sys2Proof.Machine
end

