-- ==== Sys2Proof/Config.lean ====
section
/-! DEFINITION. The static configuration `CONFIG` (spec R8, R32 to R38) and the open parameter of the
reference front-end, `SERVICE_ORDER` (R222). The default values are in Machine/Defaults.lean. -/

namespace Sys2Proof

/-- The three tick sources (R204). -/
inductive TickSource where
  | clk
  | scan
  | btn
deriving DecidableEq, Repr

/-- A permutation of (clk, btn, scan), first served first (R222). -/
inductive Priority where
  | clkScanBtn
  | clkBtnScan
  | scanClkBtn
  | scanBtnClk
  | btnClkScan
  | btnScanClk
deriving DecidableEq, Repr

/-- `SERVICE_ORDER` (R222): a fixed permutation, or any pending source. With `anyPending` the choice comes with
the environment's input, so a statement about every state covers every choice. DESIGN CHOICE, safe: log 11. -/
inductive ServiceOrder where
  | fixed (p : Priority)
  | anyPending
deriving DecidableEq, Repr

/-- `CONFIG` (R38): static, written by no event. `segTable` has its 11 entries by type (R37, R56); the other legal
values are checked by `Config.legal`. `serviceOrder` belongs to the front-end, outside the block. -/
structure Config where
  /-- `ROLLOVER`, clock ticks in a minute (R32). -/
  rollover : Nat
  /-- `MODE_12H` (R33). -/
  mode12H : Bool
  /-- `SEG_ACTIVE_LOW` (R34). -/
  segActiveLow : Bool
  /-- `DIG_ACTIVE_LOW` (R35). -/
  digActiveLow : Bool
  /-- `BLANK_PHASE` (R36). -/
  blankPhase : Bool
  /-- `SEG_TABLE` (R37, R52): entries 0 to 9 the digits, entry 10 the lit colon. -/
  segTable : Vector Byte 11
  /-- `SERVICE_ORDER` (R222). The spec does not list it in CONFIG; held here it is static (DESIGN CHOICE, safe: log 26). -/
  serviceOrder : ServiceOrder
deriving DecidableEq, Repr

end Sys2Proof
end

