-- ==== Sys2Proof/WellFormed.lean ====
section
/-! DEFINITION. What is a legal configuration (spec R8, R9, D30) and a well-formed event (R77: every one). -/

namespace Sys2Proof

/-- R8: `ROLLOVER` is 1 to 256. -/
def Config.rolloverLegal (c : Config) : Bool := decide (1 ≤ c.rollover) && decide (c.rollover ≤ 256)

/-- R52: entry 10 of the table is not 0x00, so that a lit colon differs from a dark one. -/
def Config.colonLegal (c : Config) : Bool := decide (c.segTable[(10 : Fin 11)] ≠ 0)

/-- R9: the configurations of this hardware. -/
def Config.legal (c : Config) : Bool := c.rolloverLegal && c.colonLegal

/-- A table given as a list of entries; one that has not exactly 11 is refused (R9). -/
def Config.withEntries (c : Config) (entries : List Byte) : Option Config :=
  if h : entries.length = 11 then some { c with segTable := ⟨entries.toArray, by simpa using h⟩ } else none

/-- R77: there are no illegal encodings, and no event has an operand that could be out of range. -/
def Instr.wellFormed : Instr → Bool
  | .idle => true
  | .clktick => true
  | .scantick => true
  | .btntickNone => true
  | .btntickMin => true
  | .btntickHr => true
  | .btntickBoth => true

end Sys2Proof
end

