-- ==== Sys2Proof/Decode.lean ====
section
/-! DEFINITION. The decoder, total on event words (spec R74 to R77), the encoder, the opcode table's rows, and the
program text of hexadecimal digits (R81). What is no event word at all is rejected by name. -/

namespace Sys2Proof

/-- Why a number or a character is no event word. -/
inductive DecodeError where
  /-- The number needs more than the 4 bits of format E (R71). -/
  | widerThanFourBits
  /-- The character is no hexadecimal digit (R81). -/
  | notAHexDigit (c : Char)
deriving DecidableEq, Repr

/-- The event a word selects (R74): by `kind`, and by the two levels for a BTNTICK. -/
def decodeWord (w : EventWord) : Instr :=
  match Machine.kindField w with
  | 0b00#2 => .idle
  | 0b01#2 => .clktick
  | 0b10#2 => .scantick
  | _ => Machine.buttonEvent (Machine.mField w) (Machine.hField w)

/-- The canonical encodings (R75). -/
def encode : Instr → EventWord
  | .idle => 0x0
  | .clktick => 0x1
  | .scantick => 0x2
  | .btntickNone => 0x3
  | .btntickMin => 0x7
  | .btntickHr => 0xB
  | .btntickBoth => 0xF

/-- One row of the opcode map (R74). -/
structure OpcodeRow where
  event : Instr
  mask : EventWord
  pattern : EventWord
deriving DecidableEq, Repr

/-- The opcode map of R74, row by row. -/
def opcodeTable : List OpcodeRow :=
  [ ⟨.idle, 0x3, 0x0⟩, ⟨.clktick, 0x3, 0x1⟩, ⟨.scantick, 0x3, 0x2⟩, ⟨.btntickNone, 0xF, 0x3⟩,
    ⟨.btntickMin, 0xF, 0x7⟩, ⟨.btntickHr, 0xF, 0xB⟩, ⟨.btntickBoth, 0xF, 0xF⟩ ]

/-- R74: a word selects the row whose `(w AND mask) = match`. -/
def OpcodeRow.selects (r : OpcodeRow) (w : EventWord) : Bool := w &&& r.mask == r.pattern

/-- The event of a number: an event word is exactly 4 bits (R71), so a larger number is rejected. -/
def decodeNat (n : Nat) : Except DecodeError Instr :=
  if n < 16 then .ok (decodeWord (BitVec.ofNat 4 n)) else .error .widerThanFourBits

/-- The decoder on a word numbered as the opcode table numbers it: bit 0 of `w` is `ev[0]`. A row has 4 bits; in a
container of whole bytes the bits above `ev[3]` are zero. DESIGN CHOICE, safe: log 7. -/
def decodeTableWord (nbits w : Nat) : Option Instr :=
  if nbits < 4 then none
  else match decodeNat w with
    | .ok i => some i
    | .error _ => none

/-- The value of a hexadecimal digit, in either case (R81). DESIGN CHOICE, safe: log 15. -/
def hexValue (c : Char) : Option EventWord :=
  if '0' ≤ c ∧ c ≤ '9' then some (BitVec.ofNat 4 (c.toNat - '0'.toNat))
  else if 'A' ≤ c ∧ c ≤ 'F' then some (BitVec.ofNat 4 (c.toNat - 'A'.toNat + 10))
  else if 'a' ≤ c ∧ c ≤ 'f' then some (BitVec.ofNat 4 (c.toNat - 'a'.toNat + 10))
  else none

/-- The hexadecimal digit of a word, as the spec writes it (R81). -/
def hexDigit (w : EventWord) : Char :=
  if w.toNat < 10 then Char.ofNat ('0'.toNat + w.toNat) else Char.ofNat ('A'.toNat + (w.toNat - 10))

/-- The event of one character of a program text. -/
def decodeDigit (c : Char) : Except DecodeError Instr :=
  match hexValue c with
  | some w => .ok (decodeWord w)
  | none => .error (.notAHexDigit c)

/-- A program text: one hexadecimal digit an event, the first event leftmost (R81). -/
def decodeProgram : List Char → Except DecodeError (List Instr)
  | [] => .ok []
  | c :: cs =>
    match decodeDigit c, decodeProgram cs with
    | .ok i, .ok is => .ok (i :: is)
    | .error e, _ => .error e
    | .ok _, .error e => .error e

/-- The text of a program (R81): no header, no length, no terminator. -/
def encodeProgram (p : List Instr) : List Char := p.map fun i => hexDigit (encode i)

end Sys2Proof
end

