-- ==== Sys2Proof/Machine/Defaults.lean ====
section
/-! DEFINITION. The default configuration (spec R8) with the default segment table (R52). -/

namespace Sys2Proof.Machine

/-- The default patterns of R52 (the digits are PRESUMED by the spec itself, from general knowledge; log 9). -/
def defaultSegTable : Vector Byte 11 :=
  #v[0x3F, 0x06, 0x5B, 0x4F, 0x66, 0x6D, 0x7D, 0x07, 0x7F, 0x6F, 0x80]

/-- The defaults of R8, and "any" for SERVICE_ORDER (R222). -/
def defaultConfig : Config where
  rollover := 120
  mode12H := false
  segActiveLow := false
  digActiveLow := false
  blankPhase := false
  segTable := defaultSegTable
  serviceOrder := .anyPending

end Sys2Proof.Machine
end

