-- ==== Sys2Proof/Machine/Flags.lean ====
section
/-! DEFINITION. The block stores no flag (spec R31); these are the conditions its handlers test and consume, and
the bounded increment they go with (R100). -/

namespace Sys2Proof.Machine

/-- The blink phase `odd(seconds)` (R31, R11): derived, never stored. -/
def blinkPhase (seconds : Nat) : Bool := seconds % 2 == 1

/-- `wrap_B(c)` (R100): the counter stands at its bound - 1. -/
def wrapsAt (bound c : Nat) : Bool := c == bound - 1

/-- `inc_B(c)` (R100): the comparison comes before the increment, so no value ever equals the bound. -/
def incMod (bound c : Nat) : Nat := if wrapsAt bound c then 0 else c + 1

/-- `inc_B` on a counter that is bounded by type (R100, R24). -/
def incFin {bound : Nat} (c : Fin bound) : Fin bound :=
  if h : c.val = bound - 1 then ⟨0, by omega⟩ else ⟨c.val + 1, by omega⟩

end Sys2Proof.Machine
end

