-- ==== Sys2Proof/Machine/Memory.lean ====
section
/-! DEFINITION. The display buffer (spec R50, R51): the buffer space 0..4, and the two primitives it has (R55). It is
kept as a list of cells in one canonical form: addresses strictly rising and below 5, no cell that holds the blank
pattern, which is what an address with no cell reads as. DESIGN CHOICE, safe: log 14. -/

namespace Sys2Proof.Machine

/-- The buffer space as a list of cells. -/
abbrev Memory := List Host.Cell

/-- The blank pattern 0x00 (R14, R52). -/
def blankPattern : Byte := 0x00

/-- Five patterns, one for each buffer entry (R51, R120). -/
structure Patterns where
  /-- hour tens -/
  p0 : Byte
  /-- hour units -/
  p1 : Byte
  /-- minute tens -/
  p2 : Byte
  /-- minute units -/
  p3 : Byte
  /-- colon -/
  p4 : Byte
deriving DecidableEq, Repr

/-- The pattern of entry i (R51). -/
def Patterns.get (p : Patterns) (i : Fin 5) : Byte :=
  match i with
  | 0 => p.p0
  | 1 => p.p1
  | 2 => p.p2
  | 3 => p.p3
  | 4 => p.p4

/-- Addresses strictly rising. -/
def Memory.rising : Memory → Bool
  | [] => true
  | [_] => true
  | a :: b :: rest => decide (a.1 < b.1) && Memory.rising (b :: rest)

/-- The canonical form. -/
def Memory.wf (m : Memory) : Bool :=
  Memory.rising m && m.all fun c => decide (c.1 < 5) && c.2 != blankPattern

/-- `BufRead(i)` (R55): the index is bounded by type (R56). -/
def bufRead (m : Memory) (i : Fin 5) : Byte :=
  match m.find? fun c => c.1 == i.val with
  | some c => c.2
  | none => blankPattern

/-- `BufWriteAll(p0, …, p4)` (R55): all five entries in one action; nothing of the buffer before is left. -/
def bufWriteAll (p : Patterns) : Memory :=
  [(0, p.p0), (1, p.p1), (2, p.p2), (3, p.p3), (4, p.p4)].filter fun c => c.2 != blankPattern

end Sys2Proof.Machine
end

