-- ==== Sys2Proof/Machine/Encoder.lean ====
section
/-! DEFINITION. The display encoder (spec R120 to R124): a pure function of the time and the configuration. -/

namespace Sys2Proof.Machine

/-- `TabRead(d)` (R55): the index is bounded by type (R56, R128). -/
def tabRead (c : Config) (d : Fin 11) : Byte := c.segTable[d]

/-- `display_hour(hours)` (R121): 0 → 12 and modulo 12 in 12-hour mode, the hour itself otherwise. -/
def displayHour (c : Config) (hours : Fin 24) : Fin 24 :=
  if c.mode12H then
    if hours.val % 12 = 0 then 12 else ⟨hours.val % 12, by omega⟩
  else hours

/-- The tens digit of a two-digit value (R122), a decimal digit. -/
def tensDigit (v : Nat) (h : v < 60) : Fin 10 := ⟨v / 10, by omega⟩

/-- The units digit of a two-digit value (R122), a decimal digit. -/
def unitsDigit (v : Nat) : Fin 10 := ⟨v % 10, by omega⟩

/-- Digit-to-segment lookup (R123): no arithmetic on the pattern, and no polarity (R131). -/
def digitPattern (c : Config) (d : Fin 10) : Byte := tabRead c ⟨d.val, by omega⟩

/-- The colon entry (R124): the lit-colon pattern if `seconds` is odd, else blank. -/
def colonPattern (c : Config) (seconds : Nat) : Byte :=
  if blinkPhase seconds then tabRead c 10 else blankPattern

/-- `encode(hours, minutes, seconds)` (R120), in the order of R51; no leading zero is blanked (R127). -/
def encodeTime (c : Config) (hours : Fin 24) (minutes : Fin 60) (seconds : Nat) : Patterns where
  p0 := digitPattern c (tensDigit (displayHour c hours).val (by omega))
  p1 := digitPattern c (unitsDigit (displayHour c hours).val)
  p2 := digitPattern c (tensDigit minutes.val minutes.isLt)
  p3 := digitPattern c (unitsDigit minutes.val)
  p4 := colonPattern c seconds

end Sys2Proof.Machine
end

