-- ==== Sys2Proof/Machine/State.lean ====
section
/-! DEFINITION. The state of the machine (spec R20), the environment's inputs, the pin-write events (R12), why a step
can stop, and the state after reset (R43, R231). -/

namespace Sys2Proof.Machine

/-- The block raises no exception and has no stuck state (R200, R203): no fault exists. -/
inductive Fault where
deriving DecidableEq, Repr

/-- Why the model gives no behaviour (R14 "refuse"). -/
inductive Refusal where
  /-- Raised by `exec` for an event with no meaning yet (none is left). Safe: nothing is claimed of it. -/
  | notModelled (mnemonic : String)
  /-- Raised by every event and by the power-up reset under a configuration outside the legal values (R9, R203). Safe. -/
  | illegalConfiguration
  /-- Raised by every event in a state that breaks the range invariant of the counters, and by a start line that asks
  for such a state (R24, R203). Safe. -/
  | counterOutOfRange
  /-- Raised by a start line whose cursor is outside its range (U7). An event is never refused for its cursor
  (R149). Safe. -/
  | cursorOutOfRange
  /-- Raised by an input that would change the configuration of the running block (R38, R203, R246). Safe. -/
  | configurationChange
deriving DecidableEq, Repr

/-- A pin-write event (R12), logical levels. -/
inductive PinWrite where
  /-- `SEG(p)`: the segment lines take the pattern p. -/
  | seg (p : Byte)
  /-- `DIG(d)`: the digit-enable lines take the pattern d. -/
  | dig (d : DigitLines)
deriving DecidableEq, Repr

/-- One step of the environment at the reference front-end (R221, R222): the strobes since the last service, the
button levels at this one, and which pending source is preferred where the service order is open. -/
structure FrontEndInput where
  tickClk : Bool
  tickScan : Bool
  tickBtn : Bool
  btnMin : Bool
  btnHr : Bool
  prefer : Priority
deriving DecidableEq, Repr

/-- What the environment can do to the machine, between handlers (R61, R207). -/
inductive Input where
  /-- Deliver one event word (R71, R207). -/
  | word (w : EventWord)
  /-- One front-end step (R221, R222). -/
  | strobes (f : FrontEndInput)
  /-- Power returns after a loss, and reset is applied (R220, R231). -/
  | powerUp
  /-- Try to put another configuration in place while the block runs (R38, R246). -/
  | configure (c : Config)
deriving DecidableEq, Repr

/-- The state. `cfg` is static and no step writes it (R38; DESIGN CHOICE, safe: log 1). `seconds` to `digL` are the record
of R20, `pendClk` to `pendBtn` the front-end of R221. `inputs` and `pinLog` are the model's own: the inputs still to
come (log 2) and the pin writes so far, oldest first (R12, log 4). -/
structure State where
  cfg : Config
  seconds : Nat
  minutes : Fin 60
  hours : Fin 24
  buf : Memory
  cursor : Fin 8
  segL : Byte
  digL : DigitLines
  pendClk : Bool
  pendScan : Bool
  pendBtn : Bool
  inputs : List Input
  pinLog : List PinWrite
deriving DecidableEq, Repr

/-- The cursor after reset (R43, D16): 0, or the blank sentinel where there is one. -/
def resetCursor (c : Config) : Fin 8 := if c.blankPhase then 5 else 0

/-- The pin writes of `reset()`, in order (R231). -/
def resetWrites : List PinWrite := [.dig 0, .seg blankPattern]

/-- The state after `reset()` under the configuration `c` (R43, R231, R232). -/
def State.resetWith (c : Config) : State where
  cfg := c
  seconds := 0
  minutes := 0
  hours := 0
  buf := bufWriteAll (encodeTime c 0 0 0)
  cursor := resetCursor c
  segL := blankPattern
  digL := 0
  pendClk := false
  pendScan := false
  pendBtn := false
  inputs := []
  pinLog := resetWrites

/-- The state after reset under the default configuration (R8). DESIGN CHOICE, unsafe for a claim about this one state:
log 8. -/
def State.reset : State := State.resetWith defaultConfig

end Sys2Proof.Machine
end

