-- ==== Sys2Proof/Machine/Ops.lean ====
section
/-! DEFINITION. The named operations over registers, memory and pins, the one entry through which every event is served,
and the environment's two inputs that are no events. -/

namespace Sys2Proof.Machine

def State.setSeconds (s : State) (v : Nat) : State := { s with seconds := v }

def State.setMinutes (s : State) (v : Fin 60) : State := { s with minutes := v }

def State.setHours (s : State) (v : Fin 24) : State := { s with hours := v }

def State.setBuf (s : State) (m : Memory) : State := { s with buf := m }

def State.setCursor (s : State) (k : Fin 8) : State := { s with cursor := k }

def State.setInputs (s : State) (is : List Input) : State := { s with inputs := is }

/-- Latch a segment pattern and emit `SEG(p)` (R12, R26). -/
def State.writeSeg (s : State) (p : Byte) : State := { s with segL := p, pinLog := s.pinLog ++ [.seg p] }

/-- Latch the digit-enable lines and emit `DIG(d)` (R12, R27). -/
def State.writeDig (s : State) (d : DigitLines) : State := { s with digL := d, pinLog := s.pinLog ++ [.dig d] }

/-- `onehot_5(i)` (R10). -/
def onehot5 (i : Fin 5) : DigitLines := 1#5 <<< i.val

/-- Serve one event: the entry of every handler and its end. It saves nothing, changes no mode and restores nothing
(R211, R212); the handler is one atomic step (R3, R61). An illegal configuration (R9) and a counter out of its range
(R24) are refused (R203); `minutes` and `hours` are in range by type, and a cursor is never refused (R149). -/
def serve (s : State) (handler : State → State) : Host.Outcome State Fault Refusal :=
  if s.cfg.legal = false then .refused .illegalConfiguration
  else if s.seconds < s.cfg.rollover then .next (handler s)
  else .refused .counterOutOfRange

/-- Reset after a loss of power (R220, R231): every register as after reset, under the same configuration (R233); the
inputs still to come stay, and the pin log goes on with the writes of reset (log 12). -/
def powerUp (s : State) : Host.Outcome State Fault Refusal :=
  if s.cfg.legal = false then .refused .illegalConfiguration
  else .next { State.resetWith s.cfg with inputs := s.inputs, pinLog := s.pinLog ++ resetWrites }

/-- An attempt to change the configuration of the running block is refused (R203, R246); putting the same one in
place changes nothing (log 13). `SERVICE_ORDER` counts as part of the configuration here, so a change of it alone is refused
too; the spec does not say whether it may change during a run (DESIGN CHOICE, safe: log 26). -/
def configure (c : Config) (s : State) : Host.Outcome State Fault Refusal :=
  if c = s.cfg then serve s fun t => t else .refused .configurationChange

end Sys2Proof.Machine
end

