-- ==== Sys2Proof/Machine/Clock.lean ====
section
/-! DEFINITION. The clock state machine (spec R101 to R104), `recompute()` (R120, R125) and the event CLKTICK (R102). -/

namespace Sys2Proof.Machine

/-- `tick()` (R101): one clock-tick unit, with cascade; the day boundary is dropped silently (R108). -/
def tick (s : State) : State :=
  if wrapsAt s.cfg.rollover s.seconds then
    if s.minutes = 59 then ((s.setSeconds 0).setMinutes 0).setHours (incFin s.hours)
    else (s.setSeconds 0).setMinutes (incFin s.minutes)
  else s.setSeconds (s.seconds + 1)

/-- `advance_minutes_by_edit()` (R103): modulo 60, no cascade. -/
def advanceMinutesByEdit (s : State) : State := s.setMinutes (incFin s.minutes)

/-- `advance_hours_by_edit()` (R104): modulo 24. -/
def advanceHoursByEdit (s : State) : State := s.setHours (incFin s.hours)

/-- `recompute()` (R120): all five entries at once (R125), and nothing else. -/
def recompute (s : State) : State := s.setBuf (bufWriteAll (encodeTime s.cfg s.hours s.minutes s.seconds))

/-- CLKTICK (R102): `tick(); recompute()`. -/
def execClktick (s : State) : Host.Outcome State Fault Refusal := serve s fun t => recompute (tick t)

end Sys2Proof.Machine
end

