-- ==== Sys2Proof/Machine/Buttons.lean ====
section
/-! DEFINITION. The button sampler and edit dispatcher (spec R160 to R166): level sampled, no debounce, no memory of
earlier samples (R167). -/

namespace Sys2Proof.Machine

/-- BTNTICK.NONE (R162): nothing, and no refresh (R166). -/
def execBtntickNone (s : State) : Host.Outcome State Fault Refusal := serve s fun t => t

/-- BTNTICK.MIN (R163): `advance_minutes_by_edit(); recompute()`. -/
def execBtntickMin (s : State) : Host.Outcome State Fault Refusal :=
  serve s fun t => recompute (advanceMinutesByEdit t)

/-- BTNTICK.HR (R164): `advance_hours_by_edit(); recompute()`. -/
def execBtntickHr (s : State) : Host.Outcome State Fault Refusal :=
  serve s fun t => recompute (advanceHoursByEdit t)

/-- BTNTICK.BOTH (R165): the chord guard, nothing. -/
def execBtntickBoth (s : State) : Host.Outcome State Fault Refusal := serve s fun t => t

end Sys2Proof.Machine
end

