-- ==== Sys2Proof/Machine/Scanner.lean ====
section
/-! DEFINITION. The multiplex scanner (spec R140 to R146). -/

namespace Sys2Proof.Machine

/-- `LAST` of R142: the greatest cursor value of a scan cycle. -/
def lastCursor (c : Config) : Nat := if c.blankPhase then 5 else 4

/-- `next_cursor(c)` (R142). The comparison is ≥, so that every value of a 3-bit cursor leads back to 0 (R149). -/
def nextCursor (c : Config) (k : Fin 8) : Fin 8 :=
  if h : lastCursor c ≤ k.val then 0
  else ⟨k.val + 1, by unfold lastCursor at h; split at h <;> omega⟩

/-- `scan_step()` (R146): deassert, advance, then write the pattern and assert the one line of the new position (R143,
R144), or blank the segment lines at the sentinel (R145). -/
def scanStep (s : State) : State :=
  let s1 := (s.writeDig 0).setCursor (nextCursor s.cfg s.cursor)
  if h : s1.cursor.val < 5 then (s1.writeSeg (bufRead s1.buf ⟨s1.cursor.val, h⟩)).writeDig (onehot5 ⟨s1.cursor.val, h⟩)
  else s1.writeSeg blankPattern

/-- SCANTICK (R140): exactly `scan_step()`. -/
def execScantick (s : State) : Host.Outcome State Fault Refusal := serve s scanStep

end Sys2Proof.Machine
end

