-- ==== Sys2Proof/Machine/System.lean ====
section
/-! DEFINITION. IDLE (spec R180), the time read accessor (R181), the physical pins (R28) and the two contexts (R214). -/

namespace Sys2Proof.Machine

/-- IDLE (R180): the foreground runs, and nothing changes. -/
def execIdle (s : State) : Host.Outcome State Fault Refusal := serve s fun t => t

/-- `hours_o[4:0]` (R181), in 24-hour form in both modes. -/
def hoursO (s : State) : BitVec 5 := BitVec.ofNat 5 s.hours.val

/-- `minutes_o[5:0]` (R181). -/
def minutesO (s : State) : BitVec 6 := BitVec.ofNat 6 s.minutes.val

/-- `seconds_o[7:0]` (R181): clock ticks, not seconds. -/
def secondsO (s : State) : BitVec 8 := BitVec.ofNat 8 s.seconds

/-- `seg_pin[7:0]` (R28): the latch under the segment polarity. -/
def segPin (s : State) : Byte := s.segL ^^^ (if s.cfg.segActiveLow then 0xFF else 0x00)

/-- `dig_pin[4:0]` (R28): the latch under the digit-line polarity. -/
def digPin (s : State) : DigitLines := s.digL ^^^ (if s.cfg.digActiveLow then 0b11111 else 0b00000)

/-- The two execution contexts (R214). Neither has state of its own. -/
inductive Context where
  | handler
  | foreground
deriving DecidableEq, Repr

/-- The context an event runs in: the foreground has the one operation IDLE (R215). -/
def contextOf : Instr → Context
  | .idle => .foreground
  | .clktick => .handler
  | .scantick => .handler
  | .btntickNone => .handler
  | .btntickMin => .handler
  | .btntickHr => .handler
  | .btntickBoth => .handler

end Sys2Proof.Machine
end

