-- ==== Sys2Proof/Machine/Dispatch.lean ====
section
/-! DEFINITION. The effect of one event, one arm per row of the opcode table (spec R74). -/

namespace Sys2Proof.Machine

def exec (i : Instr) (s : State) : Host.Outcome State Fault Refusal :=
  match i with
  | .idle => Sys2Proof.Machine.execIdle s
  | .clktick => Sys2Proof.Machine.execClktick s
  | .scantick => Sys2Proof.Machine.execScantick s
  | .btntickNone => Sys2Proof.Machine.execBtntickNone s
  | .btntickMin => Sys2Proof.Machine.execBtntickMin s
  | .btntickHr => Sys2Proof.Machine.execBtntickHr s
  | .btntickBoth => Sys2Proof.Machine.execBtntickBoth s

end Sys2Proof.Machine
end

