-- ==== Sys2Proof/Machine/FrontEnd.lean ====
section
/-! DEFINITION. The reference front-end (spec R221, R222), outside the block: it turns strobes and button levels into
event words, one at a time. In one step of the environment the strobes are latched first and then one pending source
is served (as the vectors of 95_test_vectors.md 2.7 have it; DESIGN CHOICE, safe: log 10). It acts only when the
environment gives it a step; until then a pending tick stays pending (DESIGN CHOICE, unsafe: log 23). -/

namespace Sys2Proof.Machine

/-- The sources of a priority, first served first (R222). -/
def Priority.sources : Priority → List TickSource
  | .clkScanBtn => [.clk, .scan, .btn]
  | .clkBtnScan => [.clk, .btn, .scan]
  | .scanClkBtn => [.scan, .clk, .btn]
  | .scanBtnClk => [.scan, .btn, .clk]
  | .btnClkScan => [.btn, .clk, .scan]
  | .btnScanClk => [.btn, .scan, .clk]

/-- A strobe sets its pending bit; one for a source already pending is lost, since the bit stays 1 (R221). -/
def latchStrobes (f : FrontEndInput) (s : State) : State :=
  { s with
    pendClk := s.pendClk || f.tickClk
    pendScan := s.pendScan || f.tickScan
    pendBtn := s.pendBtn || f.tickBtn }

/-- The pending bit of a source (R221). -/
def pending (s : State) : TickSource → Bool
  | .clk => s.pendClk
  | .scan => s.pendScan
  | .btn => s.pendBtn

/-- Clear the pending bit of the source that is served (R222). -/
def clearPending (s : State) : TickSource → State
  | .clk => { s with pendClk := false }
  | .scan => { s with pendScan := false }
  | .btn => { s with pendBtn := false }

/-- Which source is served (R222): the first pending one in the order of `SERVICE_ORDER`, or, where that is open, in the
order the environment prefers, so that any pending source can be the one. -/
def pickPending (f : FrontEndInput) (s : State) : Option TickSource :=
  let order := match s.cfg.serviceOrder with
    | .fixed p => p
    | .anyPending => f.prefer
  (Priority.sources order).find? (pending s)

/-- The event word a source delivers (R222), with the button levels of this moment (R73). -/
def sourceWord (f : FrontEndInput) : TickSource → EventWord
  | .clk => 0x1
  | .scan => 0x2
  | .btn => eventWord f.btnHr f.btnMin 0b11

/-- One front-end step: the word delivered to the block, and the state with the pending bits as they are then; IDLE
if no bit is set (R222). -/
def frontEndStep (f : FrontEndInput) (s : State) : EventWord × State :=
  match pickPending f (latchStrobes f s) with
  | some src => (sourceWord f src, clearPending (latchStrobes f s) src)
  | none => (0x0, latchStrobes f s)

end Sys2Proof.Machine
end

