-- ==== Sys2Proof/Machine/Step.lean ====
section
/-! DEFINITION. One step: take the environment's next input and run what it asks for. There is no program counter and no
fetch from memory (spec R30); an event is delivered. -/

namespace Sys2Proof.Machine

/-- One step. With no input left no tick is served, which is an idle step (R180, R184, R220; DEDUCED, safe: log 3). The
front-end acts only in a `.strobes` input: any other input, and the end of the inputs, leaves a pending tick pending, and
one list may hold words and front-end steps; R221 and R222 do not say (DESIGN CHOICE, unsafe for a claim about a pending
tick while no front-end step comes: log 23). -/
def step (s : State) : Host.Outcome State Fault Refusal :=
  match s.inputs with
  | [] => exec .idle s
  | .word w :: rest => exec (decodeWord w) (s.setInputs rest)
  | .strobes f :: rest =>
    exec (decodeWord (frontEndStep f (s.setInputs rest)).1) (frontEndStep f (s.setInputs rest)).2
  | .powerUp :: rest => powerUp (s.setInputs rest)
  | .configure c :: rest => configure c (s.setInputs rest)

/-- Deliver the event word `w` as the very next input. A number that is no 4-bit event word is not delivered
(R71, log 7). -/
def State.withFetchWord (s : State) (_nbits w : Nat) : State :=
  if w < 16 then s.setInputs (.word (BitVec.ofNat 4 w) :: s.inputs) else s

end Sys2Proof.Machine
end

