-- ==== Sys2Proof/Machine/Program.lean ====
section
/-! DEFINITION. Programs: a finite sequence of events and its run (spec R4, R184), the assembly syntax with its
configuration and start-state lines (R79), and the pseudo-instructions (R80). -/

namespace Sys2Proof.Machine

/-- A run of events from a state (R184): the end of the list is the end of the run, and nothing else happens there. -/
def serveAll : List Instr → State → Host.Outcome State Fault Refusal
  | [], s => .next s
  | i :: is, s =>
    match exec i s with
    | .next t => serveAll is t
    | .fault r => .fault r
    | .refused r => .refused r

/-- The start state of a `.state` line (R79): the reset state with the named fields replaced and the buffer recomputed.
Its pin log holds the two writes of reset, as the reset state's does; R79 does not say (DESIGN CHOICE, safe: log 22).
A state outside the ranges is refused (R24, U7), and so is an illegal configuration (R9). -/
def startState (c : Config) (hours minutes seconds cursor : Nat) : Except Refusal State :=
  if c.legal = false then .error .illegalConfiguration
  else if h : hours < 24 ∧ minutes < 60 ∧ seconds < c.rollover then
    if k : cursor ≤ lastCursor c then
      .ok { State.resetWith c with
        hours := ⟨hours, h.1⟩
        minutes := ⟨minutes, h.2.1⟩
        seconds := seconds
        cursor := ⟨cursor, by unfold lastCursor at k; split at k <;> omega⟩
        buf := bufWriteAll (encodeTime c ⟨hours, h.1⟩ ⟨minutes, h.2.1⟩ seconds) }
    else .error .cursorOutOfRange
  else .error .counterOutOfRange

/-- One line of a program's body: an event, or a pseudo-instruction (R79, R80). -/
inductive AsmLine where
  | event (i : Instr)
  | clktickTimes (n : Nat)
  | scantickTimes (n : Nat)
  | holdMin (n : Nat)
  | holdHr (n : Nat)
  | minute
  | frame
deriving DecidableEq, Repr

/-- The expansion of a line (R80). -/
def AsmLine.expand (c : Config) : AsmLine → List Instr
  | .event i => [i]
  | .clktickTimes n => List.replicate n .clktick
  | .scantickTimes n => List.replicate n .scantick
  | .holdMin n => List.replicate n .btntickMin
  | .holdHr n => List.replicate n .btntickHr
  | .minute => List.replicate c.rollover .clktick
  | .frame => List.replicate (if c.blankPhase then 6 else 5) .scantick

/-- Why a program text is not accepted. -/
inductive AsmError where
  /-- The line has not the form of R79 or R80. -/
  | badLine
  /-- The configuration or the start state is refused (R9, R24). -/
  | refused (r : Refusal)
deriving DecidableEq, Repr

/-- The words of a line, split at blanks; `cur` is the word being read. -/
def splitWords : List Char → List Char → List (List Char)
  | cur, [] => if cur = [] then [] else [cur]
  | cur, c :: cs =>
    if c = ' ' ∨ c = '\t' then (if cur = [] then [] else [cur]) ++ splitWords [] cs
    else splitWords (cur ++ [c]) cs

/-- The words of a line, less its comment (R79: one event a line, a comment after `;`). R81 writes several events with `;`
between them in running text; as a line, that is its first event and a comment (DESIGN CHOICE, unsafe for such a line:
log 24). -/
def lineWords (line : String) : List String :=
  (splitWords [] (line.toList.takeWhile fun c => c ≠ ';')).map String.ofList

/-- A decimal number, read digit by digit. -/
def readDigits : Nat → List Char → Option Nat
  | n, [] => some n
  | n, c :: cs => if '0' ≤ c ∧ c ≤ '9' then readDigits (10 * n + (c.toNat - '0'.toNat)) cs else none

/-- A decimal number of at least one digit. Leading zeros are allowed; R79 does not say (DESIGN CHOICE, safe: log 25). -/
def readNat (cs : List Char) : Option Nat := if cs = [] then none else readDigits 0 cs

/-- A repetition count `*n` (R80). -/
def readTimes (w : String) : Option Nat :=
  match w.toList with
  | '*' :: cs => readNat cs
  | _ => none

/-- An assignment `NAME=n` (R79). -/
def readAssign (w : String) : Option (String × Nat) :=
  match w.toList.dropWhile fun c => c ≠ '=' with
  | '=' :: cs => (readNat cs).map fun n => (String.ofList (w.toList.takeWhile fun c => c ≠ '='), n)
  | _ => none

/-- A one-bit value (R79 `<b>`, `<0|1>`), by its number: leading zeros in its text have been read already (DESIGN CHOICE,
safe: log 25). -/
def readBit (n : Nat) : Option Bool :=
  match n with
  | 0 => some false
  | 1 => some true
  | _ => none

/-- A line of the body (R79, R80); the dotted mnemonics are synonyms. -/
def parseBody (ws : List String) : Option AsmLine :=
  match ws with
  | ["IDLE"] => some (.event .idle)
  | ["CLKTICK"] => some (.event .clktick)
  | ["SCANTICK"] => some (.event .scantick)
  | ["BTNTICK.NONE"] => some (.event .btntickNone)
  | ["BTNTICK.MIN"] => some (.event .btntickMin)
  | ["BTNTICK.HR"] => some (.event .btntickHr)
  | ["BTNTICK.BOTH"] => some (.event .btntickBoth)
  | ["MINUTE"] => some .minute
  | ["FRAME"] => some .frame
  | ["CLKTICK", n] => (readTimes n).map .clktickTimes
  | ["SCANTICK", n] => (readTimes n).map .scantickTimes
  | ["HOLDMIN", n] => (readTimes n).map .holdMin
  | ["HOLDHR", n] => (readTimes n).map .holdHr
  | ["BTNTICK", a, b] =>
    match readAssign a, readAssign b with
    | some ("m", m), some ("h", h) => do
      let m ← readBit m
      let h ← readBit h
      return .event (buttonEvent m h)
    | _, _ => none
  | _ => none

/-- One field of a `.config` line (R79). -/
def configField (c : Config) (w : String) : Option Config :=
  match readAssign w with
  | some ("ROLLOVER", n) => some { c with rollover := n }
  | some ("MODE_12H", n) => (readBit n).map fun b => { c with mode12H := b }
  | some ("BLANK_PHASE", n) => (readBit n).map fun b => { c with blankPhase := b }
  | some ("SEG_ACTIVE_LOW", n) => (readBit n).map fun b => { c with segActiveLow := b }
  | some ("DIG_ACTIVE_LOW", n) => (readBit n).map fun b => { c with digActiveLow := b }
  | _ => none

/-- The fields of a `.state` line (R79). -/
structure StartFields where
  hours : Nat
  minutes : Nat
  seconds : Nat
  cursor : Nat
deriving DecidableEq, Repr

/-- One field of a `.state` line (R79). -/
def startField (f : StartFields) (w : String) : Option StartFields :=
  match readAssign w with
  | some ("hours", n) => some { f with hours := n }
  | some ("minutes", n) => some { f with minutes := n }
  | some ("seconds", n) => some { f with seconds := n }
  | some ("cursor", n) => some { f with cursor := n }
  | _ => none

/-- The fields not named keep the values of the reset state (R79, R43). -/
def startDefaults (c : Config) : StartFields where
  hours := 0
  minutes := 0
  seconds := 0
  cursor := (resetCursor c).val

/-- The optional `.config` line, and the lines after it. Its fields may come in any order, and of a field given twice the
last one counts; R79 does not say (DESIGN CHOICE, safe: log 21). -/
def takeConfig : List (List String) → Option (Config × List (List String))
  | (".config" :: fields) :: rest => (fields.foldlM configField defaultConfig).map fun c => (c, rest)
  | ls => some (defaultConfig, ls)

/-- The optional `.state` line, and the lines after it. Its fields may come in any order, and of a field given twice the
last one counts; R79 does not say (DESIGN CHOICE, safe: log 21). -/
def takeState (c : Config) : List (List String) → Option (StartFields × List (List String))
  | (".state" :: fields) :: rest => (fields.foldlM startField (startDefaults c)).map fun f => (f, rest)
  | ls => some (startDefaults c, ls)

/-- Assemble a program (R79, R80): its start state and its events. Lines with no word are skipped. -/
def assemble (lines : List String) : Except AsmError (State × List Instr) :=
  match takeConfig ((lines.map lineWords).filter fun ws => ws ≠ []) with
  | none => .error .badLine
  | some (c, rest) =>
    match takeState c rest with
    | none => .error .badLine
    | some (f, body) =>
      match body.mapM parseBody, startState c f.hours f.minutes f.seconds f.cursor with
      | none, _ => .error .badLine
      | some _, .error r => .error (.refused r)
      | some ls, .ok s => .ok (s, ls.flatMap (AsmLine.expand c))

end Sys2Proof.Machine
end

