-- ==== Sys2Proof/Safety.lean ====
section
/-! DEFINITION. What the claims about the machine speak of: legal states, the order of pin writes that excludes ghosting,
and the invariant of every event boundary. -/

namespace Sys2Proof.Machine

/-- A legal configuration and every counter in its range (spec R9, R24); `minutes` and `hours` are in range by type. -/
abbrev State.Legal (s : State) : Prop := s.cfg.legal = true ∧ s.seconds < s.cfg.rollover

/-- How many clock ticks into its day a state is (R105, R109). -/
def dayTicks (s : State) : Nat := (s.hours.val * 60 + s.minutes.val) * s.cfg.rollover + s.seconds

/-- The digit lines after some pin writes; `none`: not written yet. -/
def lastDig : Option DigitLines → List PinWrite → Option DigitLines
  | d, [] => d
  | _, .dig d :: ws => lastDig (some d) ws
  | d, .seg _ :: ws => lastDig d ws

/-- The segment lines after some pin writes; `none`: not written yet. -/
def lastSeg : Option Byte → List PinWrite → Option Byte
  | p, [] => p
  | p, .dig _ :: ws => lastSeg p ws
  | _, .seg p :: ws => lastSeg (some p) ws

/-- Every `SEG` write happens while all digit lines are deasserted
(R146, R240); `d` is what the digit lines carry before. -/
def ghostFreeFrom : Option DigitLines → List PinWrite → Bool
  | _, [] => true
  | _, .dig d :: ws => ghostFreeFrom (some d) ws
  | d, .seg _ :: ws => decide (d = some 0) && ghostFreeFrom d ws

/-- A pin write asserts at most one digit line (R147). -/
def atMostOneLine : PinWrite → Bool
  | .dig d => decide (d = 0) || (List.finRange 5).any fun i => decide (d = onehot5 i)
  | .seg _ => true

/-- The digit-enable latch is all deasserted, or asserts the line of the cursor and no other (R27, R147). -/
abbrev State.OneHot (s : State) : Prop :=
  s.digL = 0 ∨ ∃ i : Fin 5, s.digL = onehot5 i ∧ s.cursor.val = i.val

/-- What holds at every event boundary. -/
structure State.Inv (s : State) : Prop where
  /-- R9, R24. -/
  legal : s.Legal
  /-- The buffer's cells are in canonical form. -/
  bufWf : Memory.wf s.buf = true
  /-- R44: the buffer encodes the time. -/
  bufEncodes : s.buf = bufWriteAll (encodeTime s.cfg s.hours s.minutes s.seconds)
  /-- R25, R149: the cursor is in its range. -/
  cursorInRange : s.cursor.val ≤ lastCursor s.cfg
  /-- R147: at most one digit line is enabled, and it is the cursor's. -/
  oneHot : s.OneHot
  /-- R147: no pin write ever enables two lines. -/
  writesOneHot : s.pinLog.all atMostOneLine = true
  /-- R146, R240: the segment lines only change while no digit is enabled. -/
  ghostFree : ghostFreeFrom none s.pinLog = true
  /-- R12: the latches hold what was written last. -/
  digLatched : lastDig none s.pinLog = some s.digL
  /-- R12: the latches hold what was written last. -/
  segLatched : lastSeg none s.pinLog = some s.segL

end Sys2Proof.Machine
end

