-- ==== Sys2Proof/Certificates/Slice0/Obligations.lean ====
section
/-! DEFINITION. The statements about the machine, for the provers. `State.Legal`: a legal configuration (spec R9) and every
counter in its range (R24); the configuration is a field no step writes, so each statement is for every configuration. -/

open Sys2Proof Sys2Proof.Machine

/-! ## Encoding -/

/-- The table of R75: all sixteen words, each in the bit order h m kind. -/
def Obligations.SixteenWordsDecode : Prop :=
  [0b0000#4, 0b0100#4, 0b1000#4, 0b1100#4].map decodeWord = List.replicate 4 .idle ∧
  [0b0001#4, 0b0101#4, 0b1001#4, 0b1101#4].map decodeWord = List.replicate 4 .clktick ∧
  [0b0010#4, 0b0110#4, 0b1010#4, 0b1110#4].map decodeWord = List.replicate 4 .scantick ∧
  decodeWord 0b0011#4 = .btntickNone ∧ decodeWord 0b0111#4 = .btntickMin ∧
  decodeWord 0b1011#4 = .btntickHr ∧ decodeWord 0b1111#4 = .btntickBoth

/-- R74: every word is matched by exactly one row of the opcode map, and decodes to that row's event. -/
def Obligations.DecodeSelectsTheMatchingRow : Prop :=
  ∀ w : EventWord, ∃ r ∈ opcodeTable, r.selects w = true ∧ decodeWord w = r.event ∧
    ∀ r' ∈ opcodeTable, r'.selects w = true → r' = r

/-- The canonical word of each event decodes to it (R74, R75), and it is one of the canonical words R75 lists. -/
def Obligations.EncodedEventDecodesToItself : Prop :=
  ∀ i : Instr, i.wellFormed = true →
    decodeWord (encode i) = i ∧ (encode i).toNat ∈ [0x0, 0x1, 0x2, 0x3, 0x7, 0xB, 0xF]

/-- R76: outside BTNTICK the two level bits have no influence on what a word does. -/
def Obligations.LevelBitsIgnoredOutsideButtonTicks : Prop :=
  ∀ (w w' : EventWord) (s : State), w.extractLsb' 0 2 = w'.extractLsb' 0 2 → w.extractLsb' 0 2 ≠ 0b11#2 →
    exec (decodeWord w) s = exec (decodeWord w') s

/-- R81: the text of a program, one hexadecimal digit an event, decodes to the program, and has one digit an event. -/
def Obligations.HexProgramRoundTrip : Prop :=
  ∀ p : List Instr, (∀ i ∈ p, i.wellFormed = true) →
    decodeProgram (encodeProgram p) = .ok p ∧ (encodeProgram p).length = p.length

/-! ## The step -/

/-- A delivered word is taken from the inputs and its event is served (R30, R207); with no input left the state is held
(R184, R220: the model's reading, log 3), with a tick that is pending in the front-end left pending (the model's choice,
log 23). -/
def Obligations.StepServesTheDeliveredWord : Prop :=
  (∀ (s : State) (w : EventWord) (rest : List Input), s.inputs = .word w :: rest →
    step s = exec (decodeWord w) { s with inputs := rest }) ∧
  ∀ s : State, s.Legal → s.inputs = [] → step s = .next s

/-- R81, R184, R61: running the core over delivered words is serving the decoded events in order, and from a legal state
it completes. That the words stand in a list of inputs in the state is the model's choice (log 2). -/
def Obligations.RunOfWordsIsRunOfEvents : Prop :=
  ∀ (ws : List EventWord) (s : State), s.inputs = ws.map .word →
    Host.Core.run Sys2Proof.core ws.length s = serveAll (ws.map decodeWord) { s with inputs := [] } ∧
    (s.Legal → ∃ t, serveAll (ws.map decodeWord) { s with inputs := [] } = .next t ∧ t.Legal)

/-- R203, R107: in a legal state every event has a next state, which is legal again under the same configuration. -/
def Obligations.EveryEventCompletesInALegalState : Prop :=
  ∀ (i : Instr) (s : State), s.Legal → ∃ t, exec i s = .next t ∧ t.Legal ∧ t.cfg = s.cfg

/-- The "written by" column of R20: each register changes only in the events that write it, and no event touches the
configuration (R38), the pending bits (R221) or the inputs. -/
def Obligations.RegistersChangeOnlyInTheirEvents : Prop :=
  ∀ (i : Instr) (s : State), s.Legal → ∃ t, exec i s = .next t ∧
    (t.seconds ≠ s.seconds → i = .clktick) ∧
    (t.minutes ≠ s.minutes → i = .clktick ∨ i = .btntickMin) ∧
    (t.hours ≠ s.hours → i = .clktick ∨ i = .btntickHr) ∧
    (t.buf ≠ s.buf → i = .clktick ∨ i = .btntickMin ∨ i = .btntickHr) ∧
    (t.cursor ≠ s.cursor ∨ t.segL ≠ s.segL ∨ t.digL ≠ s.digL ∨ t.pinLog ≠ s.pinLog → i = .scantick) ∧
    t.cfg = s.cfg ∧ t.pendClk = s.pendClk ∧ t.pendScan = s.pendScan ∧ t.pendBtn = s.pendBtn ∧ t.inputs = s.inputs

/-- R38: no step, whatever its input, writes the configuration. That the configuration stands in the state is the model's
choice (log 1), and that SERVICE_ORDER is a part of it is too (log 26). -/
def Obligations.NoStepChangesTheConfiguration : Prop :=
  ∀ s t : State, step s = .next t → t.cfg = s.cfg

/-- R9: under an illegal configuration no event has a behaviour. -/
def Obligations.IllegalConfigurationIsRefused : Prop :=
  ∀ (i : Instr) (s : State), ¬ (1 ≤ s.cfg.rollover ∧ s.cfg.rollover ≤ 256 ∧ s.cfg.segTable[10] ≠ 0x00#8) →
    exec i s = .refused .illegalConfiguration

/-- R24: a state whose `seconds` are out of range gets no behaviour (`minutes` and `hours` are bounded by type). -/
def Obligations.SecondsOutOfRangeAreRefused : Prop :=
  ∀ (i : Instr) (s : State), s.cfg.legal = true → s.cfg.rollover ≤ s.seconds →
    exec i s = .refused .counterOutOfRange

/-- R38, R203, R246: an input that would change the configuration is refused; that there is such an input is the model's
reading (log 13). That a change of SERVICE_ORDER alone counts as one is the model's choice (log 26). -/
def Obligations.ConfigurationChangeIsRefused : Prop :=
  ∀ (s : State) (c : Config) (rest : List Input), s.inputs = .configure c :: rest → c ≠ s.cfg →
    step s = .refused .configurationChange

/-! ## Idle and the button events -/

/-- R180: IDLE, with any level bits, leaves the whole state and the pin log unchanged, and IDLE steps may be removed from
any program (so inserted as well) without changing what it ends in. -/
def Obligations.IdleChangesNothing : Prop :=
  (∀ w : EventWord, w.extractLsb' 0 2 = 0b00#2 → decodeWord w = .idle) ∧
  ∀ s : State, s.Legal → exec .idle s = .next s ∧
    ∀ p : List Instr, serveAll (p.filter fun i => i ≠ .idle) s = serveAll p s

/-- R162: BTNTICK.NONE, word 0x3, leaves the whole state and the pin log unchanged. -/
def Obligations.NoButtonChangesNothing : Prop :=
  decodeWord 0x3#4 = .btntickNone ∧ ∀ s : State, s.Legal → exec .btntickNone s = .next s

/-- R165: BTNTICK.BOTH, word 0xF, leaves the whole state and the pin log unchanged. -/
def Obligations.BothButtonsChangeNothing : Prop :=
  decodeWord 0xF#4 = .btntickBoth ∧ ∀ s : State, s.Legal → exec .btntickBoth s = .next s

/-- R163: BTNTICK.MIN, word 0x7: `minutes` modulo 60 without cascade, the buffer, and nothing else. -/
def Obligations.MinuteEditResult : Prop :=
  decodeWord 0x7#4 = .btntickMin ∧
  ∀ (s : State) (m : Fin 60), s.Legal → m.val = (if s.minutes.val = 59 then 0 else s.minutes.val + 1) →
    exec .btntickMin s =
      .next { s with minutes := m, buf := bufWriteAll (encodeTime s.cfg s.hours m s.seconds) }

/-- R164: BTNTICK.HR, word 0xB: `hours` modulo 24, the buffer, and nothing else; in 12-hour mode the displayed hour goes
11, 12, 1 both at noon and at midnight. -/
def Obligations.HourEditResult : Prop :=
  decodeWord 0xB#4 = .btntickHr ∧
  (∀ (s : State) (h : Fin 24), s.Legal → h.val = (if s.hours.val = 23 then 0 else s.hours.val + 1) →
    exec .btntickHr s =
      .next { s with hours := h, buf := bufWriteAll (encodeTime s.cfg h s.minutes s.seconds) }) ∧
  ∀ c : Config, c.mode12H = true →
    [11, 12, 13, 23, 0, 1].map (displayHour c) = [11, 12, 1, 11, 12, 1]

/-- R161: the pair of levels of a button tick fires at most one edit, followed by a refresh. -/
def Obligations.ButtonLevelsSelectTheEdit : Prop :=
  ∀ (m h : Bool) (s : State), s.Legal →
    exec (decodeWord (BitVec.ofBool h ++ BitVec.ofBool m ++ 0b11#2)) s =
      .next (if m = true ∧ h = false then recompute (advanceMinutesByEdit s)
        else if h = true ∧ m = false then recompute (advanceHoursByEdit s)
        else s)

/-- Vectors of 95_test_vectors.md 2.4 for every state: 60 minute edits, or 24 hour edits, give the time back (R103, R104);
the buffer then encodes it. -/
def Obligations.FullCircleOfEditsRestoresTheTime : Prop :=
  ∀ s : State, s.Legal →
    serveAll (List.replicate 60 .btntickMin) s =
      .next { s with buf := bufWriteAll (encodeTime s.cfg s.hours s.minutes s.seconds) } ∧
    serveAll (List.replicate 24 .btntickHr) s =
      .next { s with buf := bufWriteAll (encodeTime s.cfg s.hours s.minutes s.seconds) }

/-! ## The clock tick -/

/-- R101: `tick()` from a state in range: the cascade, and no register besides the three counters. -/
def Obligations.TickResult : Prop :=
  ∀ (s : State) (m : Fin 60) (h : Fin 24), s.seconds < s.cfg.rollover →
    m.val = (if s.seconds = s.cfg.rollover - 1 then if s.minutes.val = 59 then 0 else s.minutes.val + 1
      else s.minutes.val) →
    h.val = (if s.seconds = s.cfg.rollover - 1 ∧ s.minutes.val = 59 then
      if s.hours.val = 23 then 0 else s.hours.val + 1 else s.hours.val) →
    tick s =
      { s with
        seconds := if s.seconds = s.cfg.rollover - 1 then 0 else s.seconds + 1
        minutes := m
        hours := h }

/-- R102: CLKTICK, with any level bits, is `tick()` and `recompute()`: what it writes, and nothing else. Where the buffer
encodes the time before (R44), its colon entry toggles under an even ROLLOVER, and its digits change only with
`minutes` or `hours`. -/
def Obligations.ClockTickResult : Prop :=
  (∀ w : EventWord, w.extractLsb' 0 2 = 0b01#2 → decodeWord w = .clktick) ∧
  ∀ s : State, s.Legal → ∃ t, exec .clktick s = .next t ∧
    t = { s with
      seconds := (tick s).seconds
      minutes := (tick s).minutes
      hours := (tick s).hours
      buf := bufWriteAll (encodeTime s.cfg (tick s).hours (tick s).minutes (tick s).seconds) } ∧
    (s.buf = bufWriteAll (encodeTime s.cfg s.hours s.minutes s.seconds) →
      (s.cfg.rollover % 2 = 0 → (bufRead t.buf 4 = 0x00 ↔ bufRead s.buf 4 ≠ 0x00)) ∧
      (t.minutes = s.minutes → t.hours = s.hours →
        ∀ a : Fin 5, a.val < 4 → bufRead t.buf a = bufRead s.buf a))

/-- R105, R109: any number of clock ticks adds up, modulo the day; only the time and the buffer change, and the buffer
encodes the time at the end if it did at the start. -/
def Obligations.ClockTicksAddUpModuloTheDay : Prop :=
  ∀ (n : Nat) (s : State), s.Legal → ∃ t, serveAll (List.replicate n .clktick) s = .next t ∧
    dayTicks t = (dayTicks s + n) % (1440 * s.cfg.rollover) ∧ t.seconds < s.cfg.rollover ∧
    t = { s with seconds := t.seconds, minutes := t.minutes, hours := t.hours, buf := t.buf } ∧
    (s.buf = bufWriteAll (encodeTime s.cfg s.hours s.minutes s.seconds) →
      t.buf = bufWriteAll (encodeTime t.cfg t.hours t.minutes t.seconds))

/-- The period laws R105 (a), (b), (c): a minute, an hour and a day of clock ticks. -/
def Obligations.PeriodLawsOfTheClock : Prop :=
  ∀ (s : State) (m : Fin 60) (h : Fin 24), s.Legal →
    m.val = (s.minutes.val + 1) % 60 → h.val = (s.hours.val + 1) % 24 →
    (∃ t, serveAll (List.replicate s.cfg.rollover .clktick) s = .next t ∧
      t.seconds = s.seconds ∧ t.minutes = m ∧ t.hours = (if s.minutes.val = 59 then h else s.hours)) ∧
    (∃ t, serveAll (List.replicate (60 * s.cfg.rollover) .clktick) s = .next t ∧
      t.seconds = s.seconds ∧ t.minutes = s.minutes ∧ t.hours = h) ∧
    (∃ t, serveAll (List.replicate (1440 * s.cfg.rollover) .clktick) s = .next t ∧
      t.seconds = s.seconds ∧ t.minutes = s.minutes ∧ t.hours = s.hours)

/-- R168: a minute edit does not touch the tick cascade: the next automatic rollover still comes ROLLOVER - `seconds`
clock ticks later, and not before. -/
def Obligations.MinuteEditDoesNotMoveTheRollover : Prop :=
  ∀ (s : State) (k : Nat) (m m' : Fin 60), s.Legal → k ≤ s.cfg.rollover - s.seconds →
    m.val = (s.minutes.val + 1) % 60 → m'.val = (s.minutes.val + 2) % 60 →
    ∃ t, serveAll (.btntickMin :: List.replicate k .clktick) s = .next t ∧
      (k < s.cfg.rollover - s.seconds → t.minutes = m ∧ t.hours = s.hours ∧ t.seconds = s.seconds + k) ∧
      (k = s.cfg.rollover - s.seconds → t.minutes = m' ∧ t.seconds = 0)

/-- R106, R169: at the last tick of x:59 the rollover and the edit differ by the hour, and their order matters. -/
def Obligations.EditAndTickDoNotCommuteAtTheBoundary : Prop :=
  ∀ (s : State) (h : Fin 24), s.Legal → s.seconds = s.cfg.rollover - 1 → s.minutes = 59 →
    h.val = (s.hours.val + 1) % 24 →
    (∃ t, serveAll [.clktick] s = .next t ∧ t.hours = h ∧ t.minutes = 0 ∧ t.seconds = 0) ∧
    (∃ t, serveAll [.btntickMin] s = .next t ∧ t.hours = s.hours ∧ t.minutes = 0 ∧ t.seconds = s.seconds) ∧
    (∃ t, serveAll [.clktick, .btntickMin] s = .next t ∧ t.hours = h ∧ t.minutes = 1 ∧ t.seconds = 0) ∧
    (∃ t, serveAll [.btntickMin, .clktick] s = .next t ∧ t.hours = s.hours ∧ t.minutes = 1 ∧ t.seconds = 0)

/-- R248: with an odd ROLLOVER the colon is dark at the last count of a minute and at the first of the next. -/
def Obligations.OddRolloverDarkensTheColonTwice : Prop :=
  ∀ s : State, s.Inv → s.cfg.rollover % 2 = 1 → s.seconds = s.cfg.rollover - 1 →
    bufRead s.buf 4 = 0x00 ∧ ∃ t, exec .clktick s = .next t ∧ t.seconds = 0 ∧ bufRead t.buf 4 = 0x00

/-! ## The display encoder -/

/-- R121, R129: the display hour for every value of `hours`, in both modes. -/
def Obligations.DisplayHourInBothModes : Prop :=
  ∀ (c : Config) (h : Fin 24),
    (c.mode12H = false → displayHour c h = h) ∧
    (c.mode12H = true → (displayHour c h).val =
      ([12, 1, 2, 3, 4, 5, 6, 7, 8, 9, 10, 11, 12, 1, 2, 3, 4, 5, 6, 7, 8, 9, 10, 11] : List Nat).getD h.val 0)

/-- R51, R120 to R124: after every event that refreshes, the five entries are the table's patterns of the decimal digits of
the display hour and of `minutes`, and the colon by the parity of `seconds`. -/
def Obligations.RefreshedBufferShowsTheTime : Prop :=
  ∀ (i : Instr) (s : State), i ∈ [Instr.clktick, .btntickMin, .btntickHr] → s.Legal →
    ∃ t, exec i s = .next t ∧ ∃ hd : Nat,
      hd = (if s.cfg.mode12H then if t.hours.val % 12 = 0 then 12 else t.hours.val % 12 else t.hours.val) ∧
      s.cfg.segTable[hd / 10]? = some (bufRead t.buf 0) ∧
      s.cfg.segTable[hd % 10]? = some (bufRead t.buf 1) ∧
      s.cfg.segTable[t.minutes.val / 10]? = some (bufRead t.buf 2) ∧
      s.cfg.segTable[t.minutes.val % 10]? = some (bufRead t.buf 3) ∧
      bufRead t.buf 4 = (if t.seconds % 2 = 1 then s.cfg.segTable[10] else 0x00)

/-- R124, R130: where the buffer encodes the time (the invariant), the colon entry is lit exactly at odd counts. -/
def Obligations.ColonLitExactlyAtOddCounts : Prop :=
  ∀ s : State, s.Inv → (bufRead s.buf 4 ≠ 0x00 ↔ s.seconds % 2 = 1)

/-! ## The multiplex scanner -/

/-- R141, R144: every scan step first deasserts all lines, whatever they were; onto position k it then writes the pattern
of `buf[k]` and last asserts line k, and no other line. -/
def Obligations.ScanStepDeassertsThenAssertsOneLine : Prop :=
  ∀ s : State, s.Legal → ∃ t ws, exec .scantick s = .next t ∧ t.pinLog = s.pinLog ++ .dig 0b00000 :: ws ∧
    ∀ k : Fin 5, t.cursor.val = k.val →
      ws = [.seg (bufRead s.buf k), .dig t.digL] ∧ ∀ j : Nat, t.digL.getLsbD j = true ↔ j = k.val

/-- R140, R142, R143, R145, R146: all that SCANTICK does, with any level bits. Onto position k: the three pin writes in
order, the cursor and the two latches, and nothing else. Onto the blank sentinel: two pin writes, both latches blank. The
sentinel's details and the place of the sentinel in the cycle are the spec's decision D19. -/
def Obligations.ScanStepResult : Prop :=
  (∀ w : EventWord, w.extractLsb' 0 2 = 0b10#2 → decodeWord w = .scantick) ∧
  ∀ (s : State) (next : Nat), s.Legal →
    next = (if s.cursor.val ≥ (if s.cfg.blankPhase then 5 else 4) then 0 else s.cursor.val + 1) →
    (∀ (k : Fin 5) (c : Fin 8), k.val = next → c.val = next →
      exec .scantick s =
        .next { s with
          cursor := c
          segL := bufRead s.buf k
          digL := onehot5 k
          pinLog := s.pinLog ++ [.dig 0b00000, .seg (bufRead s.buf k), .dig (onehot5 k)] }) ∧
    (next = 5 →
      exec .scantick s =
        .next { s with
          cursor := 5
          segL := 0x00
          digL := 0b00000
          pinLog := s.pinLog ++ [.dig 0b00000, .seg 0x00] })

/-- R149: from any 3-bit cursor value, out of range or not, a scan step ends within the range, and from the last position
or beyond it ends at 0; an index of `BufRead` is below 5 by its type. The last clause, that past the five positions the
segment latch is blank, is R145, the spec's decision D19. -/
def Obligations.ScanStepBoundsTheCursor : Prop :=
  ∀ (s : State) (last : Nat), s.Legal → last = (if s.cfg.blankPhase then 5 else 4) →
    ∃ t, exec .scantick s = .next t ∧ t.cursor.val ≤ last ∧ (last ≤ s.cursor.val → t.cursor = 0) ∧
      (5 ≤ t.cursor.val → t.segL = 0x00)

/-- R10: the one-hot pattern of a position has that line, and no other. -/
def Obligations.OnehotLinesAreExclusive : Prop :=
  ∀ (i : Fin 5) (j : Nat), (onehot5 i).getLsbD j = true ↔ j = i.val

/-- R148: one full scan cycle (five scan ticks, or six with the blank phase), with any other events between them, brings
the cursor back and asserts each digit-enable line exactly once, never two at a time. -/
def Obligations.ScanCycleAssertsEachLineOnce : Prop :=
  ∀ (s : State) (p : List Instr), s.Legal → s.cursor.val ≤ (if s.cfg.blankPhase then 5 else 4) →
    p.count .scantick = (if s.cfg.blankPhase then 6 else 5) →
    ∃ t ws, serveAll p s = .next t ∧ t.pinLog = s.pinLog ++ ws ∧ t.cursor = s.cursor ∧
      (∀ i : Fin 5, ws.count (.dig (onehot5 i)) = 1) ∧
      ∀ d : DigitLines, .dig d ∈ ws → d = 0b00000 ∨ ∃ i : Fin 5, d = onehot5 i

/-- R151, R210: scan ticks have no effect on the time or the buffer: a program and the same program without its scan
ticks end with the same. -/
def Obligations.ScansDoNotTouchTheTime : Prop :=
  ∀ (s : State) (p : List Instr), s.Legal → ∃ t u, serveAll p s = .next t ∧
    serveAll (p.filter fun i => i ≠ .scantick) s = .next u ∧
    t.seconds = u.seconds ∧ t.minutes = u.minutes ∧ t.hours = u.hours ∧ t.buf = u.buf

/-- R62: where the invariant holds, what a scan step latches is an entry of the encoding of one single time, the current
one. -/
def Obligations.ScanLatchesAnEntryOfOneTime : Prop :=
  ∀ s : State, s.Inv → ∃ t, exec .scantick s = .next t ∧
    ∀ k : Fin 5, t.cursor.val = k.val → t.segL = (encodeTime s.cfg s.hours s.minutes s.seconds).get k

/-! ## Reset, the invariant, the outputs -/

/-- R43, R231, R232: the reset state under every configuration (the spec's decisions D15 to D18). -/
def Obligations.ResetState : Prop :=
  ∀ c : Config, ∃ s, s = State.resetWith c ∧ s.cfg = c ∧ s.seconds = 0 ∧ s.minutes = 0 ∧ s.hours = 0 ∧
    s.cursor.val = (if c.blankPhase then 5 else 0) ∧ s.segL = 0x00 ∧ s.digL = 0b00000 ∧
    s.pinLog = [.dig 0b00000, .seg 0x00] ∧ s.pendClk = false ∧ s.pendScan = false ∧ s.pendBtn = false ∧
    (c.mode12H = false → [0, 1, 2, 3, 4].map (bufRead s.buf) =
      [c.segTable[0], c.segTable[0], c.segTable[0], c.segTable[0], 0x00]) ∧
    (c.mode12H = true → [0, 1, 2, 3, 4].map (bufRead s.buf) =
      [c.segTable[1], c.segTable[2], c.segTable[0], c.segTable[0], 0x00])

/-- R220, R231, R233: a power-up reset of the running machine: the registers of the reset state, the same configuration,
the writes of reset after those before. That the inputs still to come stay is the model's choice (log 12). -/
def Obligations.PowerUpResets : Prop :=
  ∀ (s : State) (rest : List Input), s.inputs = .powerUp :: rest → s.cfg.legal = true →
    step s = .next { State.resetWith s.cfg with
      inputs := rest, pinLog := s.pinLog ++ [.dig 0b00000, .seg 0x00] }

/-- The invariant holds after reset under every legal configuration, and in the state the host starts from, whose
configuration is the model's choice (log 8), as is the buffer's canonical form (log 14). -/
def Obligations.ResetMeetsTheInvariant : Prop :=
  (∀ c : Config, c.legal = true → (State.resetWith c).Inv) ∧ State.reset.Inv

/-- R24, R44, R146, R147, R149: every step from a state that meets the invariant, whatever its input, ends in one that
does: the counters in range, the buffer the encoding of the time, at most one digit line asserted at any point of the pin
log and that of the cursor at the end, and every segment write while all digit lines are deasserted. The buffer's
canonical form (log 14), the pin log (log 4), what a power-up keeps (log 12), and the inputs other than words (logs 10
to 13) are the model's choices. -/
def Obligations.EveryStepKeepsTheInvariant : Prop :=
  ∀ s t : State, s.Inv → step s = .next t → t.Inv

/-- R79, R24, U7: a start line is accepted exactly when its fields are in range, and the state it stands for has those
fields and meets the invariant. That its pin log begins with the two writes of reset, so that the latches are the last
writes, is the model's choice (log 22). -/
def Obligations.StartLineGivesAnInvariantState : Prop :=
  ∀ (c : Config) (h m sec k : Nat), c.legal = true →
    (h < 24 ∧ m < 60 ∧ sec < c.rollover ∧ k ≤ (if c.blankPhase then 5 else 4) →
      ∃ s, startState c h m sec k = .ok s ∧ s.Inv ∧ s.cfg = c ∧
        s.hours.val = h ∧ s.minutes.val = m ∧ s.seconds = sec ∧ s.cursor.val = k ∧ s.segL = 0x00 ∧ s.digL = 0b00000) ∧
    (¬ (h < 24 ∧ m < 60 ∧ sec < c.rollover ∧ k ≤ (if c.blankPhase then 5 else 4)) →
      ∃ r, startState c h m sec k = .error r)

/-- R28: each pin is its latch bit, inverted under its polarity bit. -/
def Obligations.PinsFollowLatchesUnderPolarity : Prop :=
  ∀ s : State,
    (∀ j : Nat, j < 8 → (segPin s).getLsbD j = (s.segL.getLsbD j != s.cfg.segActiveLow)) ∧
    ∀ j : Nat, j < 5 → (digPin s).getLsbD j = (s.digL.getLsbD j != s.cfg.digActiveLow)

/-- R181: the read accessor shows the raw counters, whole. -/
def Obligations.ReadAccessorShowsTheCounters : Prop :=
  ∀ s : State, s.Legal →
    (hoursO s).toNat = s.hours.val ∧ (minutesO s).toNat = s.minutes.val ∧ (secondsO s).toNat = s.seconds

/-! ## The reference front-end -/

/-- R221: a strobe sets its pending bit, a strobe while the bit is set is lost, and latching touches nothing else. -/
def Obligations.StrobesSetTheirPendingBits : Prop :=
  ∀ (f : FrontEndInput) (s : State), ∃ t, t = latchStrobes f s ∧
    (t.pendClk = true ↔ s.pendClk = true ∨ f.tickClk = true) ∧
    (t.pendScan = true ↔ s.pendScan = true ∨ f.tickScan = true) ∧
    (t.pendBtn = true ↔ s.pendBtn = true ∨ f.tickBtn = true) ∧
    { t with pendClk := s.pendClk, pendScan := s.pendScan, pendBtn := s.pendBtn } = s

/-- R205, R222: a front-end step of a legal machine serves exactly one event: IDLE if no source is pending, else the event
of a pending source, whose bit alone is cleared; under a fixed order no source before it in that order is pending. That
strobes are latched before the service of the same step is the model's choice (log 10). -/
def Obligations.FrontEndServesOnePendingSource : Prop :=
  ∀ (f : FrontEndInput) (s u : State) (rest : List Input), s.Legal → s.inputs = .strobes f :: rest →
    u = latchStrobes f { s with inputs := rest } →
    ((∀ src, pending u src = false) → step s = .next u) ∧
    ((∃ src, pending u src = true) → ∃ src v, pending u src = true ∧
      (∀ src', pending v src' = (pending u src' && decide (src' ≠ src))) ∧
      { v with pendClk := u.pendClk, pendScan := u.pendScan, pendBtn := u.pendBtn } = u ∧
      step s = exec (match src with
        | .clk => .clktick
        | .scan => .scantick
        | .btn => buttonEvent f.btnMin f.btnHr) v ∧
      (∃ t, step s = .next t) ∧
      ∀ p, s.cfg.serviceOrder = .fixed p → ∃ before after,
        Priority.sources p = before ++ src :: after ∧ ∀ src' ∈ before, pending u src' = false)

/-- R209, R222: where the service order is open, each pending source can be the one that is served. That the strobes are
latched before the service of the same step (log 10), and that the choice comes as a preference in the environment's
input (log 11), are the model's choices. -/
def Obligations.AnyPendingSourceCanBeServed : Prop :=
  ∀ (f : FrontEndInput) (s : State) (src : TickSource), s.cfg.serviceOrder = .anyPending →
    pending (latchStrobes f s) src = true →
    ∃ p, frontEndStep { f with prefer := p } s = (sourceWord f src, clearPending (latchStrobes f s) src)
end

