-- ==== Sys2Proof/Laws/Flags.lean ====
section
/-! SUPPORT. The bounded increment (spec R100). -/

namespace Sys2Proof.Machine

theorem wrapsAt_iff (bound c : Nat) : wrapsAt bound c = true ↔ c = bound - 1 := by simp [wrapsAt]

/-- Within its bound the increment is addition of one modulo the bound. -/
theorem incMod_eq_mod {bound c : Nat} (h : c < bound) : incMod bound c = (c + 1) % bound := by
  unfold incMod
  split <;> rename_i hw
  · rw [wrapsAt_iff] at hw
    rw [show c + 1 = bound by omega, Nat.mod_self]
  · rw [wrapsAt_iff] at hw
    rw [Nat.mod_eq_of_lt (by omega)]

/-- The increment keeps a counter within its bound (R24). -/
theorem incMod_lt {bound c : Nat} (h : c < bound) : incMod bound c < bound := by
  rw [incMod_eq_mod h]; exact Nat.mod_lt _ (by omega)

/-- The increment of a counter bounded by type is the increment of R100. -/
theorem incFin_val {bound : Nat} (c : Fin bound) : (incFin c).val = incMod bound c.val := by
  unfold incFin incMod wrapsAt
  split <;> simp_all

/-- The blink phase is the parity (R31). -/
theorem blinkPhase_iff (seconds : Nat) : blinkPhase seconds = true ↔ seconds % 2 = 1 := by simp [blinkPhase]

end Sys2Proof.Machine
end

