-- ==== Sys2Proof/Laws/State.lean ====
section
/-! SUPPORT. What each register update of Machine/Ops.lean does to each field of State: one lemma a field and update, so
that no later proof unfolds a record update. -/

namespace Sys2Proof.Machine

variable (s : State)

@[simp] theorem State.setSeconds_cfg (v : Nat) : (s.setSeconds v).cfg = s.cfg := rfl
@[simp] theorem State.setSeconds_seconds (v : Nat) : (s.setSeconds v).seconds = v := rfl
@[simp] theorem State.setSeconds_minutes (v : Nat) : (s.setSeconds v).minutes = s.minutes := rfl
@[simp] theorem State.setSeconds_hours (v : Nat) : (s.setSeconds v).hours = s.hours := rfl
@[simp] theorem State.setSeconds_buf (v : Nat) : (s.setSeconds v).buf = s.buf := rfl
@[simp] theorem State.setSeconds_cursor (v : Nat) : (s.setSeconds v).cursor = s.cursor := rfl
@[simp] theorem State.setSeconds_segL (v : Nat) : (s.setSeconds v).segL = s.segL := rfl
@[simp] theorem State.setSeconds_digL (v : Nat) : (s.setSeconds v).digL = s.digL := rfl
@[simp] theorem State.setSeconds_pendClk (v : Nat) : (s.setSeconds v).pendClk = s.pendClk := rfl
@[simp] theorem State.setSeconds_pendScan (v : Nat) : (s.setSeconds v).pendScan = s.pendScan := rfl
@[simp] theorem State.setSeconds_pendBtn (v : Nat) : (s.setSeconds v).pendBtn = s.pendBtn := rfl
@[simp] theorem State.setSeconds_inputs (v : Nat) : (s.setSeconds v).inputs = s.inputs := rfl
@[simp] theorem State.setSeconds_pinLog (v : Nat) : (s.setSeconds v).pinLog = s.pinLog := rfl

@[simp] theorem State.setMinutes_cfg (v : Fin 60) : (s.setMinutes v).cfg = s.cfg := rfl
@[simp] theorem State.setMinutes_seconds (v : Fin 60) : (s.setMinutes v).seconds = s.seconds := rfl
@[simp] theorem State.setMinutes_minutes (v : Fin 60) : (s.setMinutes v).minutes = v := rfl
@[simp] theorem State.setMinutes_hours (v : Fin 60) : (s.setMinutes v).hours = s.hours := rfl
@[simp] theorem State.setMinutes_buf (v : Fin 60) : (s.setMinutes v).buf = s.buf := rfl
@[simp] theorem State.setMinutes_cursor (v : Fin 60) : (s.setMinutes v).cursor = s.cursor := rfl
@[simp] theorem State.setMinutes_segL (v : Fin 60) : (s.setMinutes v).segL = s.segL := rfl
@[simp] theorem State.setMinutes_digL (v : Fin 60) : (s.setMinutes v).digL = s.digL := rfl
@[simp] theorem State.setMinutes_pendClk (v : Fin 60) : (s.setMinutes v).pendClk = s.pendClk := rfl
@[simp] theorem State.setMinutes_pendScan (v : Fin 60) : (s.setMinutes v).pendScan = s.pendScan := rfl
@[simp] theorem State.setMinutes_pendBtn (v : Fin 60) : (s.setMinutes v).pendBtn = s.pendBtn := rfl
@[simp] theorem State.setMinutes_inputs (v : Fin 60) : (s.setMinutes v).inputs = s.inputs := rfl
@[simp] theorem State.setMinutes_pinLog (v : Fin 60) : (s.setMinutes v).pinLog = s.pinLog := rfl

@[simp] theorem State.setHours_cfg (v : Fin 24) : (s.setHours v).cfg = s.cfg := rfl
@[simp] theorem State.setHours_seconds (v : Fin 24) : (s.setHours v).seconds = s.seconds := rfl
@[simp] theorem State.setHours_minutes (v : Fin 24) : (s.setHours v).minutes = s.minutes := rfl
@[simp] theorem State.setHours_hours (v : Fin 24) : (s.setHours v).hours = v := rfl
@[simp] theorem State.setHours_buf (v : Fin 24) : (s.setHours v).buf = s.buf := rfl
@[simp] theorem State.setHours_cursor (v : Fin 24) : (s.setHours v).cursor = s.cursor := rfl
@[simp] theorem State.setHours_segL (v : Fin 24) : (s.setHours v).segL = s.segL := rfl
@[simp] theorem State.setHours_digL (v : Fin 24) : (s.setHours v).digL = s.digL := rfl
@[simp] theorem State.setHours_pendClk (v : Fin 24) : (s.setHours v).pendClk = s.pendClk := rfl
@[simp] theorem State.setHours_pendScan (v : Fin 24) : (s.setHours v).pendScan = s.pendScan := rfl
@[simp] theorem State.setHours_pendBtn (v : Fin 24) : (s.setHours v).pendBtn = s.pendBtn := rfl
@[simp] theorem State.setHours_inputs (v : Fin 24) : (s.setHours v).inputs = s.inputs := rfl
@[simp] theorem State.setHours_pinLog (v : Fin 24) : (s.setHours v).pinLog = s.pinLog := rfl

@[simp] theorem State.setBuf_cfg (m : Memory) : (s.setBuf m).cfg = s.cfg := rfl
@[simp] theorem State.setBuf_seconds (m : Memory) : (s.setBuf m).seconds = s.seconds := rfl
@[simp] theorem State.setBuf_minutes (m : Memory) : (s.setBuf m).minutes = s.minutes := rfl
@[simp] theorem State.setBuf_hours (m : Memory) : (s.setBuf m).hours = s.hours := rfl
@[simp] theorem State.setBuf_buf (m : Memory) : (s.setBuf m).buf = m := rfl
@[simp] theorem State.setBuf_cursor (m : Memory) : (s.setBuf m).cursor = s.cursor := rfl
@[simp] theorem State.setBuf_segL (m : Memory) : (s.setBuf m).segL = s.segL := rfl
@[simp] theorem State.setBuf_digL (m : Memory) : (s.setBuf m).digL = s.digL := rfl
@[simp] theorem State.setBuf_pendClk (m : Memory) : (s.setBuf m).pendClk = s.pendClk := rfl
@[simp] theorem State.setBuf_pendScan (m : Memory) : (s.setBuf m).pendScan = s.pendScan := rfl
@[simp] theorem State.setBuf_pendBtn (m : Memory) : (s.setBuf m).pendBtn = s.pendBtn := rfl
@[simp] theorem State.setBuf_inputs (m : Memory) : (s.setBuf m).inputs = s.inputs := rfl
@[simp] theorem State.setBuf_pinLog (m : Memory) : (s.setBuf m).pinLog = s.pinLog := rfl

@[simp] theorem State.setCursor_cfg (k : Fin 8) : (s.setCursor k).cfg = s.cfg := rfl
@[simp] theorem State.setCursor_seconds (k : Fin 8) : (s.setCursor k).seconds = s.seconds := rfl
@[simp] theorem State.setCursor_minutes (k : Fin 8) : (s.setCursor k).minutes = s.minutes := rfl
@[simp] theorem State.setCursor_hours (k : Fin 8) : (s.setCursor k).hours = s.hours := rfl
@[simp] theorem State.setCursor_buf (k : Fin 8) : (s.setCursor k).buf = s.buf := rfl
@[simp] theorem State.setCursor_cursor (k : Fin 8) : (s.setCursor k).cursor = k := rfl
@[simp] theorem State.setCursor_segL (k : Fin 8) : (s.setCursor k).segL = s.segL := rfl
@[simp] theorem State.setCursor_digL (k : Fin 8) : (s.setCursor k).digL = s.digL := rfl
@[simp] theorem State.setCursor_pendClk (k : Fin 8) : (s.setCursor k).pendClk = s.pendClk := rfl
@[simp] theorem State.setCursor_pendScan (k : Fin 8) : (s.setCursor k).pendScan = s.pendScan := rfl
@[simp] theorem State.setCursor_pendBtn (k : Fin 8) : (s.setCursor k).pendBtn = s.pendBtn := rfl
@[simp] theorem State.setCursor_inputs (k : Fin 8) : (s.setCursor k).inputs = s.inputs := rfl
@[simp] theorem State.setCursor_pinLog (k : Fin 8) : (s.setCursor k).pinLog = s.pinLog := rfl

@[simp] theorem State.setInputs_cfg (is : List Input) : (s.setInputs is).cfg = s.cfg := rfl
@[simp] theorem State.setInputs_seconds (is : List Input) : (s.setInputs is).seconds = s.seconds := rfl
@[simp] theorem State.setInputs_minutes (is : List Input) : (s.setInputs is).minutes = s.minutes := rfl
@[simp] theorem State.setInputs_hours (is : List Input) : (s.setInputs is).hours = s.hours := rfl
@[simp] theorem State.setInputs_buf (is : List Input) : (s.setInputs is).buf = s.buf := rfl
@[simp] theorem State.setInputs_cursor (is : List Input) : (s.setInputs is).cursor = s.cursor := rfl
@[simp] theorem State.setInputs_segL (is : List Input) : (s.setInputs is).segL = s.segL := rfl
@[simp] theorem State.setInputs_digL (is : List Input) : (s.setInputs is).digL = s.digL := rfl
@[simp] theorem State.setInputs_pendClk (is : List Input) : (s.setInputs is).pendClk = s.pendClk := rfl
@[simp] theorem State.setInputs_pendScan (is : List Input) : (s.setInputs is).pendScan = s.pendScan := rfl
@[simp] theorem State.setInputs_pendBtn (is : List Input) : (s.setInputs is).pendBtn = s.pendBtn := rfl
@[simp] theorem State.setInputs_inputs (is : List Input) : (s.setInputs is).inputs = is := rfl
@[simp] theorem State.setInputs_pinLog (is : List Input) : (s.setInputs is).pinLog = s.pinLog := rfl

@[simp] theorem State.writeSeg_cfg (p : Byte) : (s.writeSeg p).cfg = s.cfg := rfl
@[simp] theorem State.writeSeg_seconds (p : Byte) : (s.writeSeg p).seconds = s.seconds := rfl
@[simp] theorem State.writeSeg_minutes (p : Byte) : (s.writeSeg p).minutes = s.minutes := rfl
@[simp] theorem State.writeSeg_hours (p : Byte) : (s.writeSeg p).hours = s.hours := rfl
@[simp] theorem State.writeSeg_buf (p : Byte) : (s.writeSeg p).buf = s.buf := rfl
@[simp] theorem State.writeSeg_cursor (p : Byte) : (s.writeSeg p).cursor = s.cursor := rfl
@[simp] theorem State.writeSeg_segL (p : Byte) : (s.writeSeg p).segL = p := rfl
@[simp] theorem State.writeSeg_digL (p : Byte) : (s.writeSeg p).digL = s.digL := rfl
@[simp] theorem State.writeSeg_pendClk (p : Byte) : (s.writeSeg p).pendClk = s.pendClk := rfl
@[simp] theorem State.writeSeg_pendScan (p : Byte) : (s.writeSeg p).pendScan = s.pendScan := rfl
@[simp] theorem State.writeSeg_pendBtn (p : Byte) : (s.writeSeg p).pendBtn = s.pendBtn := rfl
@[simp] theorem State.writeSeg_inputs (p : Byte) : (s.writeSeg p).inputs = s.inputs := rfl
@[simp] theorem State.writeSeg_pinLog (p : Byte) : (s.writeSeg p).pinLog = s.pinLog ++ [.seg p] := rfl

@[simp] theorem State.writeDig_cfg (d : DigitLines) : (s.writeDig d).cfg = s.cfg := rfl
@[simp] theorem State.writeDig_seconds (d : DigitLines) : (s.writeDig d).seconds = s.seconds := rfl
@[simp] theorem State.writeDig_minutes (d : DigitLines) : (s.writeDig d).minutes = s.minutes := rfl
@[simp] theorem State.writeDig_hours (d : DigitLines) : (s.writeDig d).hours = s.hours := rfl
@[simp] theorem State.writeDig_buf (d : DigitLines) : (s.writeDig d).buf = s.buf := rfl
@[simp] theorem State.writeDig_cursor (d : DigitLines) : (s.writeDig d).cursor = s.cursor := rfl
@[simp] theorem State.writeDig_segL (d : DigitLines) : (s.writeDig d).segL = s.segL := rfl
@[simp] theorem State.writeDig_digL (d : DigitLines) : (s.writeDig d).digL = d := rfl
@[simp] theorem State.writeDig_pendClk (d : DigitLines) : (s.writeDig d).pendClk = s.pendClk := rfl
@[simp] theorem State.writeDig_pendScan (d : DigitLines) : (s.writeDig d).pendScan = s.pendScan := rfl
@[simp] theorem State.writeDig_pendBtn (d : DigitLines) : (s.writeDig d).pendBtn = s.pendBtn := rfl
@[simp] theorem State.writeDig_inputs (d : DigitLines) : (s.writeDig d).inputs = s.inputs := rfl
@[simp] theorem State.writeDig_pinLog (d : DigitLines) : (s.writeDig d).pinLog = s.pinLog ++ [.dig d] := rfl

end Sys2Proof.Machine
end

