-- ==== Sys2Proof/Laws/Clock.lean ====
section
/-! SUPPORT. What the clock's sub-operations do to each field (spec R101, R103, R104, R120). -/

namespace Sys2Proof.Machine

variable (s : State)

/-- `tick()` field by field (R101). -/
theorem tick_eq : tick s =
    { s with
      seconds := incMod s.cfg.rollover s.seconds
      minutes := if s.seconds = s.cfg.rollover - 1 then incFin s.minutes else s.minutes
      hours := if s.seconds = s.cfg.rollover - 1 ∧ s.minutes = 59 then incFin s.hours else s.hours } := by
  unfold tick incMod
  by_cases hw : s.seconds = s.cfg.rollover - 1
  · by_cases hm : s.minutes = 59
    · have h0 : incFin s.minutes = 0 := by rw [hm]; rfl
      simp only [wrapsAt, hw, hm, beq_self_eq_true, if_true, and_self] at h0 ⊢
      simp only [State.setSeconds, State.setMinutes, State.setHours]
      rfl
    · simp [wrapsAt, hw, hm, State.setSeconds, State.setMinutes]
  · simp [wrapsAt, hw, State.setSeconds]

@[simp] theorem tick_cfg : (tick s).cfg = s.cfg := by rw [tick_eq]
@[simp] theorem tick_buf : (tick s).buf = s.buf := by rw [tick_eq]
@[simp] theorem tick_cursor : (tick s).cursor = s.cursor := by rw [tick_eq]
@[simp] theorem tick_segL : (tick s).segL = s.segL := by rw [tick_eq]
@[simp] theorem tick_digL : (tick s).digL = s.digL := by rw [tick_eq]
@[simp] theorem tick_pendClk : (tick s).pendClk = s.pendClk := by rw [tick_eq]
@[simp] theorem tick_pendScan : (tick s).pendScan = s.pendScan := by rw [tick_eq]
@[simp] theorem tick_pendBtn : (tick s).pendBtn = s.pendBtn := by rw [tick_eq]
@[simp] theorem tick_inputs : (tick s).inputs = s.inputs := by rw [tick_eq]
@[simp] theorem tick_pinLog : (tick s).pinLog = s.pinLog := by rw [tick_eq]
theorem tick_seconds : (tick s).seconds = incMod s.cfg.rollover s.seconds := by rw [tick_eq]

/-- `tick()` keeps a legal state legal (R24, R107). -/
theorem tick_seconds_lt (h : s.seconds < s.cfg.rollover) : (tick s).seconds < s.cfg.rollover := by
  rw [tick_seconds]; exact incMod_lt h

@[simp] theorem advanceMinutesByEdit_eq : advanceMinutesByEdit s = s.setMinutes (incFin s.minutes) := rfl
@[simp] theorem advanceHoursByEdit_eq : advanceHoursByEdit s = s.setHours (incFin s.hours) := rfl

@[simp] theorem recompute_buf :
    (recompute s).buf = bufWriteAll (encodeTime s.cfg s.hours s.minutes s.seconds) := rfl
@[simp] theorem recompute_cfg : (recompute s).cfg = s.cfg := rfl
@[simp] theorem recompute_seconds : (recompute s).seconds = s.seconds := rfl
@[simp] theorem recompute_minutes : (recompute s).minutes = s.minutes := rfl
@[simp] theorem recompute_hours : (recompute s).hours = s.hours := rfl
@[simp] theorem recompute_cursor : (recompute s).cursor = s.cursor := rfl
@[simp] theorem recompute_segL : (recompute s).segL = s.segL := rfl
@[simp] theorem recompute_digL : (recompute s).digL = s.digL := rfl
@[simp] theorem recompute_pendClk : (recompute s).pendClk = s.pendClk := rfl
@[simp] theorem recompute_pendScan : (recompute s).pendScan = s.pendScan := rfl
@[simp] theorem recompute_pendBtn : (recompute s).pendBtn = s.pendBtn := rfl
@[simp] theorem recompute_inputs : (recompute s).inputs = s.inputs := rfl
@[simp] theorem recompute_pinLog : (recompute s).pinLog = s.pinLog := rfl

end Sys2Proof.Machine
end

