-- ==== Sys2Proof/Laws/Encoder.lean ====
section
/-! SUPPORT. The values the display encoder goes through (spec R121 to R124). -/

namespace Sys2Proof.Machine

/-- R121 in 24-hour mode. -/
theorem displayHour_24 {c : Config} (h : c.mode12H = false) (hours : Fin 24) : displayHour c hours = hours := by
  simp [displayHour, h]

/-- R121 in 12-hour mode, as a number. -/
theorem displayHour_12 {c : Config} (h : c.mode12H = true) (hours : Fin 24) :
    (displayHour c hours).val = if hours.val % 12 = 0 then 12 else hours.val % 12 := by
  simp only [displayHour, h, if_true]
  split <;> rfl

/-- R123: a digit's pattern is its table entry. -/
theorem digitPattern_getElem (c : Config) (d : Fin 10) : digitPattern c d = c.segTable[d.val]'(by omega) := rfl

/-- R124: the colon is lit at odd counts. -/
theorem colonPattern_odd {c : Config} {seconds : Nat} (h : seconds % 2 = 1) :
    colonPattern c seconds = c.segTable[10] := by
  simp [colonPattern, blinkPhase, h, tabRead]

/-- R124: the colon is dark at even counts. -/
theorem colonPattern_even {c : Config} {seconds : Nat} (h : seconds % 2 = 0) :
    colonPattern c seconds = blankPattern := by
  simp [colonPattern, blinkPhase, h]

end Sys2Proof.Machine
end

