-- ==== Sys2Proof/Laws/FrontEnd.lean ====
section
/-! SUPPORT. The front-end touches its pending bits and nothing else (spec R221, R222). -/

namespace Sys2Proof.Machine

/-- All that a front-end step can do: the pending bits of the state it answers, and the rest unchanged. -/
theorem frontEndStep_state (f : FrontEndInput) (s : State) :
    ∃ a b c : Bool, (frontEndStep f s).2 = { s with pendClk := a, pendScan := b, pendBtn := c } := by
  unfold frontEndStep
  split
  · rename_i src _
    cases src
    · exact ⟨false, _, _, rfl⟩
    · exact ⟨_, false, _, rfl⟩
    · exact ⟨_, _, false, rfl⟩
  · exact ⟨_, _, _, rfl⟩

/-- Every source stands in every priority. -/
theorem mem_sources (p : Priority) (src : TickSource) : src ∈ Priority.sources p := by
  cases p <;> cases src <;> decide

/-- No source is picked exactly when none is pending (R222). -/
theorem pickPending_none (f : FrontEndInput) (s : State) : pickPending f s = none ↔ ∀ src, pending s src = false := by
  unfold pickPending
  rw [List.find?_eq_none]
  constructor
  · intro h src
    have := h src (mem_sources _ src)
    simpa using this
  · intro h src _
    simp [h src]

/-- A source that is picked is pending (R222). -/
theorem pickPending_some {f : FrontEndInput} {s : State} {src : TickSource} (h : pickPending f s = some src) :
    pending s src = true := by
  unfold pickPending at h
  exact List.find?_some h

end Sys2Proof.Machine
end

