-- ==== Sys2Proof/Laws/Memory.lean ====
section
/-! SUPPORT. The laws of the display buffer: its one write keeps the canonical form, and a read after it gives what was
written (spec R55). -/

namespace Sys2Proof.Machine

/-- Every write of the buffer gives it in canonical form. -/
theorem bufWriteAll_wf (p : Patterns) : Memory.wf (bufWriteAll p) = true := by
  obtain ⟨p0, p1, p2, p3, p4⟩ := p
  simp only [bufWriteAll, List.filter]
  split <;> split <;> split <;> split <;> split <;> simp_all [Memory.wf, Memory.rising]

/-- The buffer of the reset state is in canonical form, under every configuration (R43). -/
theorem resetWith_buf_wf (c : Config) : Memory.wf (State.resetWith c).buf = true := bufWriteAll_wf _

/-- Looking up an address in the cells kept by the write: one cell at a time. -/
theorem bufRead_cons_kept (a : Nat) (v : Byte) (m : Memory) (i : Fin 5) (h : ∀ c ∈ m, a < c.1) :
    bufRead (if v != blankPattern then (a, v) :: m else m) i = if a = i.val then v else bufRead m i := by
  by_cases hv : v = blankPattern
  · subst hv
    by_cases hi : a = i.val
    · have : m.find? (fun c => c.1 == i.val) = none := by
        rw [List.find?_eq_none]
        intro c hc
        have := h c hc
        simp only [beq_iff_eq]
        omega
      simp [bufRead, this, hi]
    · simp [bufRead, hi]
  · by_cases hi : a = i.val <;> simp [bufRead, hv, hi]

/-- A filtered list of cells, one cell at a time. -/
theorem filter_cells_cons (a : Nat) (v : Byte) (m : Memory) :
    ((a, v) :: m).filter (fun c => c.2 != blankPattern) =
      if v != blankPattern then (a, v) :: m.filter (fun c => c.2 != blankPattern)
      else m.filter fun c => c.2 != blankPattern := by
  rw [List.filter_cons]

/-- R55: a read after the write gives the pattern written at that index. -/
@[simp] theorem bufRead_bufWriteAll (p : Patterns) (i : Fin 5) : bufRead (bufWriteAll p) i = p.get i := by
  obtain ⟨p0, p1, p2, p3, p4⟩ := p
  unfold bufWriteAll
  rw [filter_cells_cons, bufRead_cons_kept _ _ _ _ (by simp +contextual [List.mem_filter])]
  rw [filter_cells_cons, bufRead_cons_kept _ _ _ _ (by simp +contextual [List.mem_filter])]
  rw [filter_cells_cons, bufRead_cons_kept _ _ _ _ (by simp +contextual [List.mem_filter])]
  rw [filter_cells_cons, bufRead_cons_kept _ _ _ _ (by simp +contextual [List.mem_filter])]
  rw [filter_cells_cons, bufRead_cons_kept _ _ _ _ (by simp)]
  fin_cases i <;> simp [Patterns.get]

end Sys2Proof.Machine
end

