-- ==== Sys2Proof/Laws/Ops.lean ====
section
/-! SUPPORT. What serving an event can do, said once, and each event as the handler it serves. -/

namespace Sys2Proof.Machine

/-- A legal state is served (spec R203). -/
theorem serve_of_legal {s : State} (h : s.Legal) (f : State → State) : serve s f = .next (f s) := by
  simp [serve, h.1, h.2]

/-- All that serving can answer as a next state: the state was legal and its handler has run. -/
theorem serve_next {s t : State} {f : State → State} (h : serve s f = .next t) : s.Legal ∧ t = f s := by
  unfold serve at h
  split at h
  · cases h
  · split at h
    · exact ⟨⟨by simp_all, by assumption⟩, by simpa using h.symm⟩
    · cases h

/-- When serving refuses, and with what (R9, R24). -/
theorem serve_refused {s : State} {f : State → State} {r : Refusal} (h : serve s f = .refused r) :
    (s.cfg.legal = false ∧ r = .illegalConfiguration) ∨
      (s.cfg.legal = true ∧ s.cfg.rollover ≤ s.seconds ∧ r = .counterOutOfRange) := by
  unfold serve at h
  split at h
  · rename_i hc
    exact .inl ⟨hc, by simpa using h.symm⟩
  · split at h
    · cases h
    · rename_i hc hs
      exact .inr ⟨by simpa using hc, by omega, by simpa using h.symm⟩

/-- The handler each event serves (R74). -/
def handlerOf : Instr → State → State
  | .idle => fun s => s
  | .clktick => fun s => recompute (tick s)
  | .scantick => scanStep
  | .btntickNone => fun s => s
  | .btntickMin => fun s => recompute (advanceMinutesByEdit s)
  | .btntickHr => fun s => recompute (advanceHoursByEdit s)
  | .btntickBoth => fun s => s

/-- Every event is served through the one entry. -/
theorem exec_eq_serve (i : Instr) (s : State) : exec i s = serve s (handlerOf i) := by
  cases i <;> rfl

/-- All that an event can do: the state was legal, and the event's handler has run. -/
theorem exec_next {i : Instr} {s t : State} (h : exec i s = .next t) : s.Legal ∧ t = handlerOf i s :=
  serve_next (exec_eq_serve i s ▸ h)

/-- `exec` of an event in a legal state. -/
theorem exec_of_legal {s : State} (h : s.Legal) (i : Instr) : exec i s = .next (handlerOf i s) := by
  rw [exec_eq_serve, serve_of_legal h]

end Sys2Proof.Machine
end

