-- ==== Sys2Proof/Laws/PerInstr.lean ====
section
/-! SUPPORT. The per-event family TableRow: the canonical word of an event is selected by the event's own row of the opcode
map, and by no other (spec R74, R75). -/

namespace Sys2Proof.Laws.TableRow

/-- The word of a well-formed event is selected by exactly the row of that event. -/
def Statement (i : Instr) : Prop :=
  i.wellFormed = true → (opcodeTable.filter fun r => r.selects (encode i)).map OpcodeRow.event = [i]

theorem idle : Statement .idle := by unfold Statement; decide
theorem clktick : Statement .clktick := by unfold Statement; decide
theorem scantick : Statement .scantick := by unfold Statement; decide
theorem btntickNone : Statement .btntickNone := by unfold Statement; decide
theorem btntickMin : Statement .btntickMin := by unfold Statement; decide
theorem btntickHr : Statement .btntickHr := by unfold Statement; decide
theorem btntickBoth : Statement .btntickBoth := by unfold Statement; decide

end Sys2Proof.Laws.TableRow
end

