-- ==== Sys2Proof/Laws/PinLog.lean ====
section
/-! SUPPORT. How the pin log grows: what the lines carry after more writes, and the ghosting order of a longer log. -/

namespace Sys2Proof.Machine

theorem lastDig_append (d : Option DigitLines) (a b : List PinWrite) :
    lastDig d (a ++ b) = lastDig (lastDig d a) b := by
  induction a generalizing d with
  | nil => rfl
  | cons w ws ih => cases w <;> exact ih _

theorem lastSeg_append (p : Option Byte) (a b : List PinWrite) :
    lastSeg p (a ++ b) = lastSeg (lastSeg p a) b := by
  induction a generalizing p with
  | nil => rfl
  | cons w ws ih => cases w <;> exact ih _

theorem ghostFreeFrom_append (d : Option DigitLines) (a b : List PinWrite) :
    ghostFreeFrom d (a ++ b) = (ghostFreeFrom d a && ghostFreeFrom (lastDig d a) b) := by
  induction a generalizing d with
  | nil => rfl
  | cons w ws ih => cases w <;> simp [ghostFreeFrom, lastDig, ih, Bool.and_assoc]

/-- A one-hot pattern asserts at most one line (spec R147). -/
theorem atMostOneLine_onehot (i : Fin 5) : atMostOneLine (.dig (onehot5 i)) = true := by
  fin_cases i <;> decide

end Sys2Proof.Machine
end

