-- ==== Sys2Proof/Laws/Scanner.lean ====
section
/-! SUPPORT. What a scan step does (spec R141 to R149). -/

namespace Sys2Proof.Machine

/-- `next_cursor` as a number (R142). -/
theorem nextCursor_val (c : Config) (k : Fin 8) :
    (nextCursor c k).val = if lastCursor c ≤ k.val then 0 else k.val + 1 := by
  unfold nextCursor
  split <;> simp_all

/-- R149: a scan step never leaves the cursor above the last position. -/
theorem nextCursor_le (c : Config) (k : Fin 8) : (nextCursor c k).val ≤ lastCursor c := by
  rw [nextCursor_val]; split <;> omega

/-- A scan step onto a position (R143, R144). -/
theorem scanStep_lit {s : State} {i : Fin 5} (h : (nextCursor s.cfg s.cursor).val = i.val) :
    scanStep s =
      { s with
        cursor := nextCursor s.cfg s.cursor
        segL := bufRead s.buf i
        digL := onehot5 i
        pinLog := s.pinLog ++ [.dig 0, .seg (bufRead s.buf i), .dig (onehot5 i)] } := by
  have hi : (⟨(nextCursor s.cfg s.cursor).val, by omega⟩ : Fin 5) = i := Fin.ext h
  have hlt : (nextCursor s.cfg s.cursor).val < 5 := by omega
  simp only [scanStep, State.setCursor_cursor, State.setCursor_buf, State.writeDig_buf, dif_pos hlt, hi]
  simp [State.writeDig, State.writeSeg, State.setCursor]

/-- A scan step onto the blank sentinel (R145). -/
theorem scanStep_blank {s : State} (h : (nextCursor s.cfg s.cursor).val = 5) :
    scanStep s =
      { s with
        cursor := nextCursor s.cfg s.cursor
        segL := blankPattern
        digL := 0
        pinLog := s.pinLog ++ [.dig 0, .seg blankPattern] } := by
  simp only [scanStep]
  split
  · rename_i hlt
    rw [State.setCursor_cursor] at hlt
    omega
  · simp [State.writeDig, State.writeSeg, State.setCursor]

/-- A scan step lands on one of the five positions or on the sentinel; all it can do (R146). -/
theorem scanStep_cases (s : State) :
    (∃ i : Fin 5, (nextCursor s.cfg s.cursor).val = i.val ∧
      scanStep s =
        { s with
          cursor := nextCursor s.cfg s.cursor
          segL := bufRead s.buf i
          digL := onehot5 i
          pinLog := s.pinLog ++ [.dig 0, .seg (bufRead s.buf i), .dig (onehot5 i)] }) ∨
      ((nextCursor s.cfg s.cursor).val = 5 ∧
        scanStep s =
          { s with
            cursor := nextCursor s.cfg s.cursor
            segL := blankPattern
            digL := 0
            pinLog := s.pinLog ++ [.dig 0, .seg blankPattern] }) := by
  have hle := nextCursor_le s.cfg s.cursor
  by_cases h : (nextCursor s.cfg s.cursor).val < 5
  · exact .inl ⟨⟨_, h⟩, rfl, scanStep_lit rfl⟩
  · have h5 : (nextCursor s.cfg s.cursor).val = 5 := by
      unfold lastCursor at hle; split at hle <;> omega
    exact .inr ⟨h5, scanStep_blank h5⟩

section
variable (s : State)

@[simp] theorem scanStep_cfg : (scanStep s).cfg = s.cfg := by
  obtain ⟨i, -, h⟩ | ⟨-, h⟩ := scanStep_cases s <;> rw [h]
@[simp] theorem scanStep_seconds : (scanStep s).seconds = s.seconds := by
  obtain ⟨i, -, h⟩ | ⟨-, h⟩ := scanStep_cases s <;> rw [h]
@[simp] theorem scanStep_minutes : (scanStep s).minutes = s.minutes := by
  obtain ⟨i, -, h⟩ | ⟨-, h⟩ := scanStep_cases s <;> rw [h]
@[simp] theorem scanStep_hours : (scanStep s).hours = s.hours := by
  obtain ⟨i, -, h⟩ | ⟨-, h⟩ := scanStep_cases s <;> rw [h]
@[simp] theorem scanStep_buf : (scanStep s).buf = s.buf := by
  obtain ⟨i, -, h⟩ | ⟨-, h⟩ := scanStep_cases s <;> rw [h]
@[simp] theorem scanStep_cursor : (scanStep s).cursor = nextCursor s.cfg s.cursor := by
  obtain ⟨i, -, h⟩ | ⟨-, h⟩ := scanStep_cases s <;> rw [h]
@[simp] theorem scanStep_pendClk : (scanStep s).pendClk = s.pendClk := by
  obtain ⟨i, -, h⟩ | ⟨-, h⟩ := scanStep_cases s <;> rw [h]
@[simp] theorem scanStep_pendScan : (scanStep s).pendScan = s.pendScan := by
  obtain ⟨i, -, h⟩ | ⟨-, h⟩ := scanStep_cases s <;> rw [h]
@[simp] theorem scanStep_pendBtn : (scanStep s).pendBtn = s.pendBtn := by
  obtain ⟨i, -, h⟩ | ⟨-, h⟩ := scanStep_cases s <;> rw [h]
@[simp] theorem scanStep_inputs : (scanStep s).inputs = s.inputs := by
  obtain ⟨i, -, h⟩ | ⟨-, h⟩ := scanStep_cases s <;> rw [h]

end

end Sys2Proof.Machine
end

