-- ==== Sys2Proof/Laws/Run.lean ====
section
/-! SUPPORT. Runs: the handlers of a legal state keep it legal, so a run from one is the handlers in order (spec R184, R203). -/

namespace Sys2Proof.Machine

/-- No handler writes the configuration (R38). -/
@[simp] theorem handlerOf_cfg (i : Instr) (s : State) : (handlerOf i s).cfg = s.cfg := by
  cases i <;> simp [handlerOf]

/-- Every handler keeps the counters in range (R24, R107). -/
theorem handlerOf_seconds_lt (i : Instr) {s : State} (h : s.seconds < s.cfg.rollover) :
    (handlerOf i s).seconds < s.cfg.rollover := by
  cases i <;> simp [handlerOf, h, tick_seconds_lt]

/-- A legal state stays legal. -/
theorem handlerOf_legal (i : Instr) {s : State} (h : s.Legal) : (handlerOf i s).Legal := by
  refine ⟨?_, ?_⟩ <;> rw [handlerOf_cfg]
  · exact h.1
  · exact handlerOf_seconds_lt i h.2

/-- A run from a legal state is its handlers in order. -/
theorem serveAll_of_legal (p : List Instr) {s : State} (h : s.Legal) :
    serveAll p s = .next (p.foldl (fun t i => handlerOf i t) s) := by
  induction p generalizing s with
  | nil => rfl
  | cons i is ih => simp only [serveAll, exec_of_legal h, List.foldl_cons, ih (handlerOf_legal i h)]

/-- A run in two parts. -/
theorem serveAll_append (p q : List Instr) {s t : State} (h : serveAll p s = .next t) :
    serveAll (p ++ q) s = serveAll q t := by
  induction p generalizing s with
  | nil => cases h; rfl
  | cons i is ih =>
    simp only [List.cons_append, serveAll] at h ⊢
    split at h
    · exact ih h
    · cases h
    · cases h

end Sys2Proof.Machine
end

