-- ==== Sys2Proof/Tests/Slice0.lean ====
section
/-! SUPPORT. The model's own tests. Expected values are the vectors of spec/95_test_vectors.md (the table and section are
named at each group) or are worked out by hand from the rule named. -/

namespace Sys2Proof.Tests

open Sys2Proof.Machine

/-- The next state of an outcome, if it is one. -/
def nextOf (o : Host.Outcome State Fault Refusal) : Option State :=
  match o with
  | .next t => some t
  | .fault _ => none
  | .refused _ => none

/-- The refusal of an outcome, if it is one. -/
def refusalOf (o : Host.Outcome State Fault Refusal) : Option Refusal :=
  match o with
  | .next _ => none
  | .fault _ => none
  | .refused r => some r

/-- A legal start state, as a `.state` line gives it. -/
def at_ (c : Config) (h : Fin 24) (m : Fin 60) (sec : Nat) (k : Fin 8) : State :=
  { State.resetWith c with
    hours := h, minutes := m, seconds := sec, cursor := k, buf := bufWriteAll (encodeTime c h m sec) }

/-- The five bytes of the buffer. -/
def bytes (s : State) : List Byte := (List.finRange 5).map (bufRead s.buf)

/-- Time and buffer after one event. -/
def timeAndBytes (o : Host.Outcome State Fault Refusal) : Option (Nat × Nat × Nat × List Byte) :=
  (nextOf o).map fun t => (t.hours.val, t.minutes.val, t.seconds, bytes t)

/-- Cursor, latches and the pin writes an event added. -/
def scanOf (s : State) (o : Host.Outcome State Fault Refusal) : Option (Nat × Byte × DigitLines × List PinWrite) :=
  (nextOf o).map fun t => (t.cursor.val, t.segL, t.digL, t.pinLog.drop s.pinLog.length)

def cfg24 : Config := defaultConfig
def cfg12 : Config := { defaultConfig with mode12H := true }
def cfgBlank : Config := { defaultConfig with blankPhase := true }
def cfg256 : Config := { defaultConfig with rollover := 256 }
def cfg1 : Config := { defaultConfig with rollover := 1 }
def cfg3 : Config := { defaultConfig with rollover := 3 }
def cfgLow : Config := { defaultConfig with segActiveLow := true, digActiveLow := true }

/-! WellFormed: each check refuses an ill-formed term (R8, R9, R52). -/

theorem test_rollover_zero_illegal : Config.legal { defaultConfig with rollover := 0 } = false := by decide
theorem test_rollover_257_illegal : Config.legal { defaultConfig with rollover := 257 } = false := by decide
theorem test_blank_colon_illegal :
    Config.legal { defaultConfig with segTable := #v[1, 2, 3, 4, 5, 6, 7, 8, 9, 10, 0] } = false := by decide
theorem test_table_of_ten_refused : Config.withEntries defaultConfig (List.replicate 10 1) = none := by decide
theorem test_table_of_eleven_taken :
    (Config.withEntries defaultConfig (List.replicate 11 1)).map Config.legal = some true := by decide
theorem test_legal_bounds : cfg1.legal = true ∧ cfg256.legal = true ∧ cfg24.legal = true := by decide
theorem test_every_event_well_formed :
    (opcodeTable.map fun r => r.event.wellFormed) = List.replicate 7 true := by decide

/-! Decode: words written out bit by bit, h m kind (R71, R74, R76). -/

theorem test_decode_idle : decodeWord 0b0000#4 = .idle ∧ decodeWord 0b1100#4 = .idle := by decide
theorem test_decode_clktick : decodeWord 0b0001#4 = .clktick ∧ decodeWord 0b1001#4 = .clktick := by decide
theorem test_decode_scantick : decodeWord 0b0010#4 = .scantick ∧ decodeWord 0b0110#4 = .scantick := by decide
theorem test_decode_btn_none : decodeWord 0b0011#4 = .btntickNone := by decide
theorem test_decode_btn_min : decodeWord 0b0111#4 = .btntickMin := by decide
theorem test_decode_btn_hr : decodeWord 0b1011#4 = .btntickHr := by decide
theorem test_decode_btn_both : decodeWord 0b1111#4 = .btntickBoth := by decide
theorem test_table_word_in_a_byte : decodeTableWord 8 0x7 = some .btntickMin := by decide
theorem test_table_word_too_wide : decodeTableWord 8 0x17 = none := by decide
theorem test_not_a_hex_digit : decodeDigit 'g' = .error (.notAHexDigit 'g') := by decide

/-! CLKTICK (95, 2.1). -/

theorem test_clktick_cascade :
    timeAndBytes (exec .clktick (at_ cfg24 9 59 119 0)) = some (10, 0, 0, [0x06, 0x3F, 0x3F, 0x3F, 0x00]) := by decide
theorem test_clktick_day_wrap :
    timeAndBytes (exec .clktick (at_ cfg24 23 59 119 0)) = some (0, 0, 0, [0x3F, 0x3F, 0x3F, 0x3F, 0x00]) := by decide
theorem test_clktick_rollover_256 :
    timeAndBytes (exec .clktick (at_ cfg256 0 0 255 0)) = some (0, 1, 0, [0x3F, 0x3F, 0x3F, 0x06, 0x00]) := by decide
theorem test_clktick_rollover_1 :
    timeAndBytes (exec .clktick (at_ cfg1 0 1 0 0)) = some (0, 2, 0, [0x3F, 0x3F, 0x3F, 0x5B, 0x00]) := by decide

/-! encode in 12-hour mode (95, 2.2). -/

theorem test_encode_12h_afternoon : bytes (at_ cfg12 19 8 7 0) = [0x3F, 0x07, 0x3F, 0x7F, 0x80] := by decide
theorem test_encode_12h_midnight : bytes (at_ cfg12 0 0 0 0) = [0x06, 0x5B, 0x3F, 0x3F, 0x00] := by decide

/-! SCANTICK (95, 2.3), from (12, 34, 1) with buffer 06 5B 4F 66 80. -/

theorem test_scantick_first :
    scanOf (at_ cfg24 12 34 1 0) (exec .scantick (at_ cfg24 12 34 1 0)) =
      some (1, 0x5B, 0b00010, [.dig 0b00000, .seg 0x5B, .dig 0b00010]) := by decide
theorem test_scantick_into_blank :
    scanOf (at_ cfgBlank 12 34 1 4) (exec .scantick (at_ cfgBlank 12 34 1 4)) =
      some (5, 0x00, 0b00000, [.dig 0b00000, .seg 0x00]) := by decide
theorem test_scantick_unreachable_cursor :
    scanOf (at_ cfg24 12 34 1 5) (exec .scantick (at_ cfg24 12 34 1 5)) =
      some (0, 0x06, 0b00001, [.dig 0b00000, .seg 0x06, .dig 0b00001]) := by decide

/-! BTNTICK (95, 2.4) and IDLE (R180). -/

theorem test_btn_min_wrap :
    timeAndBytes (exec .btntickMin (at_ cfg24 7 59 45 0)) = some (7, 0, 45, [0x3F, 0x07, 0x3F, 0x3F, 0x80]) := by decide
theorem test_btn_hr_wrap :
    timeAndBytes (exec .btntickHr (at_ cfg24 23 10 3 0)) = some (0, 10, 3, [0x3F, 0x3F, 0x06, 0x3F, 0x80]) := by decide
theorem test_btn_none_identity :
    nextOf (exec .btntickNone (at_ cfg24 7 58 45 0)) = some (at_ cfg24 7 58 45 0) := by decide
theorem test_btn_both_identity :
    nextOf (exec .btntickBoth (at_ cfg24 7 58 45 0)) = some (at_ cfg24 7 58 45 0) := by decide
theorem test_idle_identity : nextOf (exec .idle (at_ cfg24 7 58 45 3)) = some (at_ cfg24 7 58 45 3) := by decide

/-! P4 (95, 3): an edit and a tick at a minute boundary do not commute. -/

theorem test_p4_tick_then_edit :
    timeAndBytes (serveAll [.clktick, .btntickMin] (at_ cfg24 10 59 119 0)) =
      some (11, 1, 0, [0x06, 0x06, 0x3F, 0x06, 0x00]) := by decide
theorem test_p4_edit_then_tick :
    timeAndBytes (serveAll [.btntickMin, .clktick] (at_ cfg24 10 59 119 0)) =
      some (10, 1, 0, [0x06, 0x3F, 0x3F, 0x06, 0x00]) := by decide

/-! Pins (95, 2.2) and the read accessor (R181). -/

theorem test_pins_active_low :
    segPin { at_ cfgLow 12 34 1 1 with segL := 0x5B } = 0xA4 ∧
      digPin { at_ cfgLow 12 34 1 1 with digL := 0b00010 } = 0b11101 := by decide
theorem test_accessor_raw :
    hoursO (at_ cfg12 19 8 7 0) = 19 ∧ minutesO (at_ cfg12 19 8 7 0) = 8 ∧ secondsO (at_ cfg256 0 0 255 0) = 255 := by
  decide

/-! Reset (95, 2.6; R231) and the inputs of the machine. -/

theorem test_reset_12h : bytes (State.resetWith cfg12) = [0x06, 0x5B, 0x3F, 0x3F, 0x00] := by decide
theorem test_reset_blank_cursor : (State.resetWith cfgBlank).cursor = 5 ∧ State.reset.cursor = 0 := by decide
theorem test_reset_pins : State.reset.pinLog = [.dig 0b00000, .seg 0x00] := by decide
theorem test_step_with_no_input_is_idle : nextOf (step State.reset) = some State.reset := by decide
theorem test_fetch_word_runs_next :
    (nextOf (step (State.reset.withFetchWord 8 0x1))).map (fun t => (t.seconds, t.inputs)) = some (1, []) := by decide
theorem test_power_up_keeps_configuration :
    (nextOf (step { at_ cfg12 9 9 9 2 with inputs := [.powerUp] })).map (fun t => (t.cfg, t.hours, bytes t)) =
      some (cfg12, 0, [0x06, 0x5B, 0x3F, 0x3F, 0x00]) := by decide

/-! Refusals (R9, R24, R246). -/

theorem test_illegal_configuration_refused :
    refusalOf (exec .idle (State.resetWith { defaultConfig with rollover := 0 })) = some .illegalConfiguration := by decide
theorem test_seconds_out_of_range_refused :
    refusalOf (exec .clktick { State.reset with seconds := 120 }) = some .counterOutOfRange := by decide
theorem test_configuration_change_refused :
    refusalOf (step { State.reset with inputs := [.configure cfg12] }) = some .configurationChange := by decide

/-! Front-end (95, 2.7). -/

def quiet : FrontEndInput := ⟨false, false, false, false, false, .clkScanBtn⟩

theorem test_strobe_while_pending_is_lost :
    (latchStrobes { quiet with tickClk := true } { State.reset with pendClk := true }).pendClk = true := by decide
theorem test_no_strobe_delivers_idle : frontEndStep quiet State.reset = (0x0, State.reset) := by decide
theorem test_buttons_delivered_as_levels :
    (frontEndStep { quiet with tickBtn := true, btnMin := true } State.reset).1 = 0x7 ∧
      (frontEndStep { quiet with tickBtn := true, btnMin := true, btnHr := true } State.reset).1 = 0xF ∧
      (frontEndStep { quiet with tickBtn := true } State.reset).1 = 0x3 := by decide
theorem test_deferred_tick_stays_pending :
    (frontEndStep { quiet with tickClk := true, tickScan := true, prefer := .scanBtnClk } State.reset).1 = 0x2 ∧
      (frontEndStep { quiet with tickClk := true, tickScan := true, prefer := .scanBtnClk } State.reset).2.pendClk = true := by
  decide

/-! Program text (95, 3: P3, and the .config line of P1). -/

theorem test_p3_assembles :
    assemble [".state hours=7 minutes=58 seconds=45 cursor=0", "HOLDMIN *2", "BTNTICK m=1 h=1 ; chord", "BTNTICK m=0 h=0",
        "BTNTICK m=0 h=1"] =
      .ok (at_ cfg24 7 58 45 0, [.btntickMin, .btntickMin, .btntickBoth, .btntickNone, .btntickHr]) := by decide
theorem test_p3_encodes :
    encodeProgram [.btntickMin, .btntickMin, .btntickBoth, .btntickNone, .btntickHr] = ['7', '7', 'F', '3', 'B'] := by
  decide
theorem test_config_line :
    assemble [".config MODE_12H=1 BLANK_PHASE=1", "FRAME"] =
      .ok (State.resetWith { cfg12 with blankPhase := true }, List.replicate 6 .scantick) := by decide
theorem test_start_out_of_range_refused :
    assemble [".state hours=24"] = .error (.refused .counterOutOfRange) := by decide

/-! Witnesses: for each statement of Certificates/Slice0/Obligations.lean that has hypotheses, a state and operands that meet
them together, each clause at a boundary of its range. -/

/-- A state of the invariant. -/
theorem at_inv (c : Config) (h : Fin 24) (m : Fin 60) (sec : Nat) (k : Fin 8) (hl : c.legal = true) (hs : sec < c.rollover)
    (hk : k.val ≤ lastCursor c) : (at_ c h m sec k).Inv where
  legal := ⟨hl, hs⟩
  bufWf := bufWriteAll_wf _
  bufEncodes := rfl
  cursorInRange := hk
  oneHot := .inl rfl
  writesOneHot := by rfl
  ghostFree := by rfl
  digLatched := rfl
  segLatched := rfl

theorem witness_Legal : (at_ cfg24 7 58 45 0).Legal ∧ (at_ cfg256 23 59 255 4).Legal ∧ (at_ cfg1 0 0 0 0).Legal := by decide
theorem witness_Inv : (at_ cfg24 23 59 119 4).Inv := at_inv _ _ _ _ _ (by decide) (by decide) (by decide)
theorem witness_EncodedEventDecodesToItself : Instr.wellFormed .btntickHr = true := by decide
theorem witness_LevelBitsIgnoredOutsideButtonTicks :
    (0xD#4).extractLsb' 0 2 = (0x1#4).extractLsb' 0 2 ∧ (0xD#4).extractLsb' 0 2 ≠ 0b11#2 := by decide
theorem witness_HexProgramRoundTrip : ∀ i ∈ [Instr.idle, .btntickBoth], i.wellFormed = true := by decide
theorem witness_StepServesTheDeliveredWord :
    (State.reset.withFetchWord 8 0xB).inputs = .word 0xB :: [] ∧ State.reset.Legal ∧ State.reset.inputs = [] := by decide
theorem witness_RunOfWordsIsRunOfEvents :
    { State.reset with inputs := [.word 0x1, .word 0x2] }.inputs = [0x1#4, 0x2#4].map .word ∧
      { State.reset with inputs := [.word 0x1, .word 0x2] }.Legal := by decide
theorem witness_NoStepChangesTheConfiguration : (nextOf (step State.reset)).isSome = true := by decide
theorem witness_IllegalConfigurationIsRefused (c : Config)
    (h : c ∈ [{ cfg24 with rollover := 0 }, { cfg24 with rollover := 257 },
      { cfg24 with segTable := #v[1, 2, 3, 4, 5, 6, 7, 8, 9, 10, 0] }]) :
    ¬ (1 ≤ c.rollover ∧ c.rollover ≤ 256 ∧ c.segTable[10] ≠ 0x00#8) := by revert c; decide
theorem witness_SecondsOutOfRangeAreRefused :
    (at_ cfg24 0 0 120 0).cfg.legal = true ∧ (at_ cfg24 0 0 120 0).cfg.rollover ≤ (at_ cfg24 0 0 120 0).seconds := by decide
theorem witness_ConfigurationChangeIsRefused :
    { State.reset with inputs := [.configure cfg12] }.inputs = .configure cfg12 :: [] ∧ cfg12 ≠ State.reset.cfg := by decide
theorem witness_IdleChangesNothing : (0xC#4).extractLsb' 0 2 = 0b00#2 ∧ (at_ cfg24 7 58 45 0).Legal := by decide
theorem witness_MinuteEditResult : (at_ cfg24 7 59 45 0).Legal ∧
    (0 : Fin 60).val = (if (at_ cfg24 7 59 45 0).minutes.val = 59 then 0 else (at_ cfg24 7 59 45 0).minutes.val + 1) := by
  decide
theorem witness_HourEditResult : (at_ cfg24 23 10 3 0).Legal ∧
    (0 : Fin 24).val = (if (at_ cfg24 23 10 3 0).hours.val = 23 then 0 else (at_ cfg24 23 10 3 0).hours.val + 1) ∧
    cfg12.mode12H = true := by decide
theorem witness_TickResult : (at_ cfg24 23 59 119 0).seconds < (at_ cfg24 23 59 119 0).cfg.rollover ∧
    (0 : Fin 60).val = (if (119 : Nat) = 120 - 1 then if (59 : Nat) = 59 then 0 else 59 + 1 else 59) ∧
    (0 : Fin 24).val = (if (119 : Nat) = 120 - 1 ∧ (59 : Nat) = 59 then if (23 : Nat) = 23 then 0 else 23 + 1 else 23) := by
  decide
theorem witness_ClockTickResult : (0xD#4).extractLsb' 0 2 = 0b01#2 ∧ (at_ cfg24 0 0 118 0).Legal ∧
    (at_ cfg24 0 0 118 0).buf = bufWriteAll (encodeTime cfg24 0 0 118) ∧ cfg24.rollover % 2 = 0 ∧
    (nextOf (exec .clktick (at_ cfg24 0 0 118 0))).map (fun t => (t.minutes, t.hours)) = some (0, 0) := by decide
theorem witness_PeriodLawsOfTheClock : (at_ cfg24 23 59 3 0).Legal ∧
    (0 : Fin 60).val = ((at_ cfg24 23 59 3 0).minutes.val + 1) % 60 ∧
    (0 : Fin 24).val = ((at_ cfg24 23 59 3 0).hours.val + 1) % 24 := by decide
theorem witness_MinuteEditDoesNotMoveTheRollover : (at_ cfg24 7 58 45 0).Legal ∧ 74 < 120 - 45 ∧ 75 = 120 - 45 ∧
    (59 : Fin 60).val = ((at_ cfg24 7 58 45 0).minutes.val + 1) % 60 ∧
    (0 : Fin 60).val = ((at_ cfg24 7 58 45 0).minutes.val + 2) % 60 := by decide
theorem witness_EditAndTickDoNotCommuteAtTheBoundary : (at_ cfg24 10 59 119 0).Legal ∧
    (at_ cfg24 10 59 119 0).seconds = (at_ cfg24 10 59 119 0).cfg.rollover - 1 ∧ (at_ cfg24 10 59 119 0).minutes = 59 ∧
    (11 : Fin 24).val = ((at_ cfg24 10 59 119 0).hours.val + 1) % 24 := by decide
theorem witness_OddRolloverDarkensTheColonTwice :
    (at_ cfg3 0 0 2 0).Inv ∧ (at_ cfg3 0 0 2 0).cfg.rollover % 2 = 1 ∧
      (at_ cfg3 0 0 2 0).seconds = (at_ cfg3 0 0 2 0).cfg.rollover - 1 :=
  ⟨at_inv _ _ _ _ _ (by decide) (by decide) (by decide), by decide, by decide⟩
theorem witness_RefreshedBufferShowsTheTime :
    Instr.btntickHr ∈ [Instr.clktick, .btntickMin, .btntickHr] ∧ (at_ cfg12 23 59 0 0).Legal := by decide
theorem witness_DisplayHourInBothModes : cfg24.mode12H = false ∧ cfg12.mode12H = true := by decide
theorem witness_ScanStepDeassertsThenAssertsOneLine : (at_ cfg24 12 34 1 4).Legal ∧
    (nextOf (exec .scantick (at_ cfg24 12 34 1 4))).map (fun t => t.cursor.val) = some (0 : Fin 5).val := by decide
theorem witness_ScanStepResult_position : (0xE#4).extractLsb' 0 2 = 0b10#2 ∧ (at_ cfg24 12 34 1 3).Legal ∧
    4 = (if (at_ cfg24 12 34 1 3).cursor.val ≥ (if cfg24.blankPhase then 5 else 4) then 0 else
      (at_ cfg24 12 34 1 3).cursor.val + 1) ∧ (4 : Fin 5).val = 4 ∧ (4 : Fin 8).val = 4 := by decide
theorem witness_ScanStepResult_blank : (at_ cfgBlank 12 34 1 4).Legal ∧
    5 = (if (at_ cfgBlank 12 34 1 4).cursor.val ≥ (if cfgBlank.blankPhase then 5 else 4) then 0 else
      (at_ cfgBlank 12 34 1 4).cursor.val + 1) := by decide
theorem witness_ScanStepBoundsTheCursor : (at_ cfg24 12 34 1 7).Legal ∧ 4 = (if cfg24.blankPhase then 5 else 4) ∧
    4 ≤ (at_ cfg24 12 34 1 7).cursor.val ∧ 5 = (if cfgBlank.blankPhase then 5 else 4) ∧
    (nextOf (exec .scantick (at_ cfgBlank 12 34 1 4))).map (fun t => decide (5 ≤ t.cursor.val)) = some true := by decide
theorem witness_ScanCycleAssertsEachLineOnce :
    (at_ cfg24 12 34 1 4).cursor.val ≤ (if cfg24.blankPhase then 5 else 4) ∧
    (Instr.clktick :: List.replicate 5 .scantick).count .scantick = (if cfg24.blankPhase then 6 else 5) ∧
    (at_ cfgBlank 12 34 1 5).cursor.val ≤ (if cfgBlank.blankPhase then 5 else 4) ∧
    (Instr.clktick :: List.replicate 6 .scantick).count .scantick = (if cfgBlank.blankPhase then 6 else 5) := by decide
theorem witness_ScanLatchesAnEntryOfOneTime : (at_ cfg24 12 34 1 4).Inv ∧
    (nextOf (exec .scantick (at_ cfg24 12 34 1 4))).map (fun t => t.cursor.val) = some (0 : Fin 5).val :=
  ⟨at_inv _ _ _ _ _ (by decide) (by decide) (by decide), by decide⟩
theorem witness_PowerUpResets :
    { State.reset with inputs := [.powerUp] }.inputs = .powerUp :: [] ∧ State.reset.cfg.legal = true := by decide
theorem witness_EveryStepKeepsTheInvariant :
    (at_ cfg24 23 59 119 4).Inv ∧ (nextOf (step (at_ cfg24 23 59 119 4))).isSome = true := ⟨witness_Inv, by decide⟩
theorem witness_StartLineGivesAnInvariantState : cfg24.legal = true ∧
    ((23 : Nat) < 24 ∧ (59 : Nat) < 60 ∧ 119 < cfg24.rollover ∧ 4 ≤ (if cfg24.blankPhase then 5 else 4)) ∧
    ¬ ((23 : Nat) < 24 ∧ (59 : Nat) < 60 ∧ 119 < cfg24.rollover ∧ 5 ≤ (if cfg24.blankPhase then 5 else 4)) := by decide

/-- A front-end input with two strobes. -/
def twoStrobes : FrontEndInput := { quiet with tickClk := true, tickScan := true }

theorem witness_FrontEndServesOnePendingSource_idle : (∀ src, pending (latchStrobes quiet State.reset) src = false) := by
  intro src; cases src <;> decide
theorem witness_FrontEndServesOnePendingSource_served :
    (at_ { cfg24 with serviceOrder := .fixed .scanClkBtn } 0 0 0 0).Legal ∧
    pending (latchStrobes twoStrobes (at_ { cfg24 with serviceOrder := .fixed .scanClkBtn } 0 0 0 0)) .clk = true := by decide
theorem witness_AnyPendingSourceCanBeServed : State.reset.cfg.serviceOrder = .anyPending ∧
    pending (latchStrobes twoStrobes State.reset) .scan = true := by decide

end Sys2Proof.Tests
end

section
/-! The scope's own statements (spec 00_scope.md): which configurations are refused (R8, R9), and the one-hot pattern (R10). -/

namespace Sys2Proof.Machine

/-- The legal configurations of R8, R9 and R52, as the spec lists them. -/
theorem configLegal_iff (c : Config) :
    c.legal = true ↔ 1 ≤ c.rollover ∧ c.rollover ≤ 256 ∧ c.segTable[10] ≠ 0x00#8 := by
  simp [Config.legal, Config.rolloverLegal, Config.colonLegal, and_assoc]

/-- The check of the configuration comes before everything else (R9). -/
theorem serve_of_illegal {s : State} (h : s.cfg.legal = false) (f : State → State) :
    serve s f = .refused .illegalConfiguration := if_pos h

/-- `exec` of an event under an illegal configuration. -/
theorem exec_of_illegal {s : State} (h : s.cfg.legal = false) (i : Instr) :
    exec i s = .refused .illegalConfiguration := by
  rw [exec_eq_serve, serve_of_illegal h]

/-- Settles O11: what is not in the spec's list is not legal, and every event goes through `serve`. -/
theorem illegalConfigurationIsRefused : Obligations.IllegalConfigurationIsRefused := by
  intro i s hlist
  have hillegal : s.cfg.legal = false := by
    rwa [← configLegal_iff, Bool.not_eq_true] at hlist
  exact exec_of_illegal hillegal i

/-- Line `j` of the one-hot pattern is the shifted bit 0 of the pattern 1 (R10). -/
theorem getLsbD_onehot5 (i : Fin 5) (j : Nat) : (onehot5 i).getLsbD j = decide (j = i.val) := by
  rw [onehot5, BitVec.getLsbD_shiftLeft, BitVec.getLsbD_one, Bool.eq_iff_iff]
  simp only [Bool.and_eq_true, Bool.not_eq_true', decide_eq_true_eq, decide_eq_false_iff_not]
  omega

/-- Settles O34, from the value of each line. -/
theorem onehotLinesAreExclusive : Obligations.OnehotLinesAreExclusive := by
  intro i j
  rw [getLsbD_onehot5, decide_eq_true_iff]

end Sys2Proof.Machine
end

section
/-! The state's own statements (spec 10_state.md): who writes each register (R20, R38), the ranges (R24), the pins (R28), the
state after reset (R43), and the invariant every step keeps (R44). -/

namespace Sys2Proof.Machine

/-! ## What each handler leaves unchanged: the "written by" column of R20 -/

section
variable {i : Instr} (s : State)

theorem handlerOf_seconds (h : ¬ i = .clktick) : (handlerOf i s).seconds = s.seconds := by
  cases i <;> simp_all [handlerOf]

theorem handlerOf_minutes (h : ¬ (i = .clktick ∨ i = .btntickMin)) : (handlerOf i s).minutes = s.minutes := by
  cases i <;> simp_all [handlerOf]

theorem handlerOf_hours (h : ¬ (i = .clktick ∨ i = .btntickHr)) : (handlerOf i s).hours = s.hours := by
  cases i <;> simp_all [handlerOf]

theorem handlerOf_buf (h : ¬ (i = .clktick ∨ i = .btntickMin ∨ i = .btntickHr)) : (handlerOf i s).buf = s.buf := by
  cases i <;> simp_all [handlerOf]

/-- Only a scan step moves the cursor or writes a pin (R26, R27). -/
theorem handlerOf_scan_registers (h : ¬ i = .scantick) :
    (handlerOf i s).cursor = s.cursor ∧ (handlerOf i s).segL = s.segL ∧ (handlerOf i s).digL = s.digL ∧
      (handlerOf i s).pinLog = s.pinLog := by
  cases i <;> simp_all [handlerOf]

variable (i)

@[simp] theorem handlerOf_pendClk : (handlerOf i s).pendClk = s.pendClk := by cases i <;> simp [handlerOf]
@[simp] theorem handlerOf_pendScan : (handlerOf i s).pendScan = s.pendScan := by cases i <;> simp [handlerOf]
@[simp] theorem handlerOf_pendBtn : (handlerOf i s).pendBtn = s.pendBtn := by cases i <;> simp [handlerOf]
@[simp] theorem handlerOf_inputs : (handlerOf i s).inputs = s.inputs := by cases i <;> simp [handlerOf]

end

/-- Settles O9: in a legal state the event's handler has run, and a register it changed is one it may write. -/
theorem registersChangeOnlyInTheirEvents : Obligations.RegistersChangeOnlyInTheirEvents := by
  intro i s hlegal
  refine ⟨handlerOf i s, exec_of_legal hlegal i, ?_, ?_, ?_, ?_, ?_, handlerOf_cfg i s, handlerOf_pendClk i s,
    handlerOf_pendScan i s, handlerOf_pendBtn i s, handlerOf_inputs i s⟩
  · exact fun hchanged => by_contra fun hi => hchanged (handlerOf_seconds s hi)
  · exact fun hchanged => by_contra fun hi => hchanged (handlerOf_minutes s hi)
  · exact fun hchanged => by_contra fun hi => hchanged (handlerOf_hours s hi)
  · exact fun hchanged => by_contra fun hi => hchanged (handlerOf_buf s hi)
  · intro hchanged
    by_contra hi
    obtain ⟨hcursor, hseg, hdig, hlog⟩ := handlerOf_scan_registers s hi
    simp [hcursor, hseg, hdig, hlog] at hchanged

/-! ## Counters out of range -/

/-- Under a legal configuration, seconds out of range are refused (R24). -/
theorem serve_of_outOfRange {s : State} (hc : s.cfg.legal = true) (hs : s.cfg.rollover ≤ s.seconds)
    (f : State → State) : serve s f = .refused .counterOutOfRange := by
  simp [serve, hc, Nat.not_lt.mpr hs]

/-- Settles O12: every event goes through `serve`. -/
theorem secondsOutOfRangeAreRefused : Obligations.SecondsOutOfRangeAreRefused := by
  intro i s hc hs
  rw [exec_eq_serve, serve_of_outOfRange hc hs]

/-! ## All that a step can do -/

/-- The state with other pending bits and other inputs to come: what the environment's side of a step may write before
the block acts. -/
def State.withEnvironment (s : State) (pendClk pendScan pendBtn : Bool) (inputs : List Input) : State :=
  { s with pendClk := pendClk, pendScan := pendScan, pendBtn := pendBtn, inputs := inputs }

/-- A step that answers has served one event, with only the pending bits and the inputs changed before it, or it was a
power-up under a legal configuration. An end of the inputs, and a configuration put in place again, are served as IDLE. -/
theorem step_next {s t : State} (h : step s = .next t) :
    (∃ i a b c is, exec i (s.withEnvironment a b c is) = .next t) ∨
      (s.cfg.legal = true ∧ ∃ is,
        t = { State.resetWith s.cfg with inputs := is, pinLog := s.pinLog ++ resetWrites }) := by
  unfold step at h
  split at h
  case h_1 => exact .inl ⟨.idle, _, _, _, _, h⟩
  case h_2 w rest _ => exact .inl ⟨decodeWord w, _, _, _, rest, h⟩
  case h_3 f rest _ =>
    obtain ⟨a, b, c, henv⟩ := frontEndStep_state f (s.setInputs rest)
    rw [henv] at h
    exact .inl ⟨_, a, b, c, rest, h⟩
  case h_4 rest _ =>
    unfold powerUp at h
    split at h
    · cases h
    · next hlegal => exact .inr ⟨by simpa using hlegal, rest, by simpa using h.symm⟩
  case h_5 c rest _ =>
    unfold configure at h
    split at h
    · exact .inl ⟨.idle, _, _, _, rest, h⟩
    · cases h

/-- Settles O10: no handler writes the configuration, and a power-up resets under the one in place. -/
theorem noStepChangesTheConfiguration : Obligations.NoStepChangesTheConfiguration := by
  intro s t h
  obtain ⟨i, a, b, c, is, hexec⟩ | ⟨-, is, rfl⟩ := step_next h
  · obtain ⟨-, rfl⟩ := exec_next hexec
    exact handlerOf_cfg i _
  · rfl

/-! ## The pin log and the latches -/

/-- The clauses of the invariant about the pin log and the two latches (R12, R146, R147, R240). -/
structure PinsConsistent (log : List PinWrite) (digL : DigitLines) (segL : Byte) : Prop where
  writesOneHot : log.all atMostOneLine = true
  ghostFree : ghostFreeFrom none log = true
  digLatched : lastDig none log = some digL
  segLatched : lastSeg none log = some segL

theorem State.Inv.pins {s : State} (h : s.Inv) : PinsConsistent s.pinLog s.digL s.segL :=
  ⟨h.writesOneHot, h.ghostFree, h.digLatched, h.segLatched⟩

namespace PinsConsistent

variable {log : List PinWrite} {d : DigitLines} {p : Byte}

/-- A digit-line write of at most one line may come at any time. -/
theorem writeDig (h : PinsConsistent log d p) {d' : DigitLines} (hd : atMostOneLine (.dig d') = true) :
    PinsConsistent (log ++ [.dig d']) d' p where
  writesOneHot := by simp [h.writesOneHot, hd]
  ghostFree := by simp [ghostFreeFrom_append, h.ghostFree, ghostFreeFrom]
  digLatched := by rw [lastDig_append]; rfl
  segLatched := by rw [lastSeg_append, h.segLatched]; rfl

/-- A segment write may come while the digit lines are deasserted. -/
theorem writeSeg (h : PinsConsistent log 0 p) (p' : Byte) : PinsConsistent (log ++ [.seg p']) 0 p' where
  writesOneHot := by simp [h.writesOneHot, atMostOneLine]
  ghostFree := by simp [ghostFreeFrom_append, h.ghostFree, h.digLatched, ghostFreeFrom]
  digLatched := by rw [lastDig_append, h.digLatched]; rfl
  segLatched := by rw [lastSeg_append]; rfl

/-- Deassert, then write the segments: the order of reset (R231) and of the blank sentinel (R145). -/
theorem blankThenSeg (h : PinsConsistent log d p) (p' : Byte) :
    PinsConsistent (log ++ [.dig 0, .seg p']) 0 p' := by
  simpa using (h.writeDig (d' := 0) rfl).writeSeg p'

/-- Deassert, write the segments, assert one line: the order of a scan step (R146). -/
theorem blankThenLit (h : PinsConsistent log d p) (p' : Byte) (i : Fin 5) :
    PinsConsistent (log ++ [.dig 0, .seg p', .dig (onehot5 i)]) (onehot5 i) p' := by
  simpa using (h.blankThenSeg p').writeDig (atMostOneLine_onehot i)

end PinsConsistent

theorem pinsConsistent_resetWrites : PinsConsistent resetWrites 0 blankPattern := ⟨rfl, rfl, rfl, rfl⟩

/-! ## The state after reset -/

theorem resetCursor_val (c : Config) : (resetCursor c).val = if c.blankPhase then 5 else 0 := by
  unfold resetCursor; split <;> rfl

theorem resetCursor_le (c : Config) : (resetCursor c).val ≤ lastCursor c := by
  rw [resetCursor_val, lastCursor]; split <;> omega

/-- The five buffer entries of the reset state: the encoding of the time 0:0:0. -/
theorem bufRead_resetWith (c : Config) :
    [0, 1, 2, 3, 4].map (bufRead (State.resetWith c).buf) =
      [digitPattern c (tensDigit (displayHour c 0).val (by omega)), digitPattern c (unitsDigit (displayHour c 0).val),
        c.segTable[0], c.segTable[0], blankPattern] := by
  simp only [State.resetWith, List.map, bufRead_bufWriteAll]
  rfl

/-- Settles O38: the registers by definition, the buffer through the encoding of midnight in each mode. -/
theorem resetState : Obligations.ResetState := by
  intro c
  refine ⟨_, rfl, rfl, rfl, rfl, rfl, resetCursor_val c, rfl, rfl, rfl, rfl, rfl, rfl, ?_, ?_⟩
  · intro h24
    rw [bufRead_resetWith]
    simp only [displayHour_24 h24]
    rfl
  · intro h12
    have hnoon : displayHour c 0 = 12 := Fin.ext (displayHour_12 h12 0)
    rw [bufRead_resetWith]
    simp only [hnoon]
    rfl

/-- The registers of reset meet the invariant with any pin log that ends blank, and any inputs to come. -/
theorem resetWith_inv {c : Config} (hc : c.legal = true) (is : List Input) {log : List PinWrite}
    (hlog : PinsConsistent log 0 blankPattern) : { State.resetWith c with inputs := is, pinLog := log }.Inv where
  legal := ⟨hc, (configLegal_iff c).mp hc |>.1⟩
  bufWf := resetWith_buf_wf c
  bufEncodes := rfl
  cursorInRange := resetCursor_le c
  oneHot := .inl rfl
  writesOneHot := hlog.writesOneHot
  ghostFree := hlog.ghostFree
  digLatched := hlog.digLatched
  segLatched := hlog.segLatched

/-- Settles O40, with the two writes of reset as the pin log. -/
theorem resetMeetsTheInvariant : Obligations.ResetMeetsTheInvariant := by
  have hreset (c : Config) (hc : c.legal = true) : (State.resetWith c).Inv :=
    resetWith_inv hc [] pinsConsistent_resetWrites
  exact ⟨hreset, hreset defaultConfig (by decide)⟩

/-! ## The invariant -/

/-- The invariant does not speak of the pending bits or the inputs. -/
theorem State.Inv.withEnvironment {s : State} (h : s.Inv) (a b c : Bool) (is : List Input) :
    (s.withEnvironment a b c is).Inv :=
  { h with }

/-- A new time in range and a refresh of the buffer keep the invariant, whatever the time was before. -/
theorem State.Inv.refreshed {s : State} (h : s.Inv) {sec : Nat} (hsec : sec < s.cfg.rollover) (m : Fin 60)
    (hr : Fin 24) : (recompute { s with seconds := sec, minutes := m, hours := hr }).Inv :=
  { h with
    legal := ⟨h.legal.1, hsec⟩
    bufWf := bufWriteAll_wf _
    bufEncodes := rfl }

/-- A scan step keeps the invariant: the new cursor is in range, and the pin writes come in the order that excludes
ghosting (R146). -/
theorem State.Inv.scanStep {s : State} (h : s.Inv) : (scanStep s).Inv := by
  obtain ⟨i, hi, heq⟩ | ⟨-, heq⟩ := scanStep_cases s <;> rw [heq]
  · have hpins := h.pins.blankThenLit (bufRead s.buf i) i
    exact { hpins, h with
      cursorInRange := nextCursor_le _ _
      oneHot := .inr ⟨i, rfl, hi⟩ }
  · have hpins := h.pins.blankThenSeg blankPattern
    exact { hpins, h with
      cursorInRange := nextCursor_le _ _
      oneHot := .inl rfl }

/-- Every event's handler keeps the invariant. -/
theorem State.Inv.handlerOf {s : State} (h : s.Inv) (i : Instr) : (handlerOf i s).Inv := by
  cases i with
  | idle | btntickNone | btntickBoth => exact h
  | clktick =>
    change (recompute (tick s)).Inv
    rw [tick_eq]
    exact h.refreshed (incMod_lt h.legal.2) _ _
  | scantick => exact h.scanStep
  | btntickMin => exact h.refreshed h.legal.2 (incFin s.minutes) s.hours
  | btntickHr => exact h.refreshed h.legal.2 s.minutes (incFin s.hours)

/-- Settles O41: the handler of the event served keeps the invariant, and a power-up resets it. -/
theorem everyStepKeepsTheInvariant : Obligations.EveryStepKeepsTheInvariant := by
  intro s t hinv hstep
  obtain ⟨i, a, b, c, is, hexec⟩ | ⟨hlegal, is, rfl⟩ := step_next hstep
  · obtain ⟨-, rfl⟩ := exec_next hexec
    exact (hinv.withEnvironment a b c is).handlerOf i
  · exact resetWith_inv hlegal is (hinv.pins.blankThenSeg blankPattern)

/-! ## The physical pins -/

/-- A polarity bit inverts every line of a latch, or none (R28, decision D9). -/
theorem getLsbD_xor_polarity {w : Nat} (latch : BitVec w) (activeLow : Bool) {j : Nat} (hj : j < w) :
    (latch ^^^ (if activeLow then BitVec.allOnes w else 0)).getLsbD j = (latch.getLsbD j != activeLow) := by
  cases activeLow <;> simp [hj]

/-- Settles O43, each pin being a latch bit under a polarity mask of all ones or none. -/
theorem pinsFollowLatchesUnderPolarity : Obligations.PinsFollowLatchesUnderPolarity := fun s =>
  ⟨fun _ hj => getLsbD_xor_polarity s.segL s.cfg.segActiveLow hj,
    fun _ hj => getLsbD_xor_polarity s.digL s.cfg.digActiveLow hj⟩

end Sys2Proof.Machine
end

section
/-! The memory's own statements (spec 20_memory.md): the total order of the handlers (R61), what the display buffer holds (R51),
and what the scanner sees of it (R62). -/

namespace Sys2Proof.Machine

/-! ## Running delivered words: the order of R61 -/

section
variable (s : State) (is : List Input)

theorem tick_setInputs : tick (s.setInputs is) = (tick s).setInputs is := by
  simp only [tick_eq, State.setInputs]

theorem scanStep_setInputs : scanStep (s.setInputs is) = (scanStep s).setInputs is := by
  obtain ⟨i, hi, heq⟩ | ⟨h5, heq⟩ := scanStep_cases s <;> rw [heq]
  · exact scanStep_lit (s := s.setInputs is) hi
  · exact scanStep_blank (s := s.setInputs is) h5

/-- No handler sees the inputs to come (R42, log 2). -/
theorem handlerOf_setInputs (i : Instr) : handlerOf i (s.setInputs is) = (handlerOf i s).setInputs is := by
  cases i with
  | idle | btntickNone | btntickBoth => rfl
  | clktick => exact congrArg recompute (tick_setInputs s is)
  | scantick => exact scanStep_setInputs s is
  | btntickMin | btntickHr => rfl

end

/-- A state that is not legal refuses every event, for one reason, whatever inputs are to come (R9, R24). -/
theorem exec_setInputs_of_not_legal {s : State} (h : ¬ s.Legal) :
    ∃ r, ∀ i is, exec i (s.setInputs is) = .refused r := by
  by_cases hc : s.cfg.legal = true
  · have hs : s.cfg.rollover ≤ s.seconds := Nat.le_of_not_lt fun hlt => h ⟨hc, hlt⟩
    refine ⟨.counterOutOfRange, fun i is => ?_⟩
    rw [exec_eq_serve]
    exact serve_of_outOfRange (s := s.setInputs is) hc hs _
  · refine ⟨.illegalConfiguration, fun i is => ?_⟩
    exact exec_of_illegal (s := s.setInputs is) (Bool.eq_false_iff.mpr hc) i

/-- A delivered word is taken from the inputs, and its event is served (R30, R207). -/
theorem step_word {s : State} {w : EventWord} {rest : List Input} (h : s.inputs = .word w :: rest) :
    step s = exec (decodeWord w) (s.setInputs rest) := by
  rw [step, h]

theorem run_succ_of_next {s t : State} (h : step s = .next t) (k : Nat) :
    Host.Core.run core (k + 1) s = Host.Core.run core k t := by
  have hcore : core.step s = .next t := h
  simp only [Host.Core.run, hcore]

theorem run_succ_of_refused {s : State} {r : Refusal} (h : step s = .refused r) (k : Nat) :
    Host.Core.run core (k + 1) s = .refused r := by
  have hcore : core.step s = .refused r := h
  simp only [Host.Core.run, hcore]

/-- Running the core over delivered words is serving the decoded events one after the other (R61, R184). -/
theorem run_words (ws : List EventWord) {s : State} (h : s.inputs = ws.map .word) :
    Host.Core.run core ws.length s = serveAll (ws.map decodeWord) (s.setInputs []) := by
  induction ws generalizing s with
  | nil => exact congrArg (fun is => Host.Outcome.next (s.setInputs is)) h
  | cons w ws ih =>
    have hstep := step_word h
    rw [List.length_cons, List.map_cons, serveAll]
    by_cases hlegal : s.Legal
    · have hserved (is : List Input) :
          exec (decodeWord w) (s.setInputs is) = .next ((handlerOf (decodeWord w) s).setInputs is) := by
        rw [exec_of_legal (s := s.setInputs is) hlegal, handlerOf_setInputs]
      rw [hserved] at hstep ⊢
      exact (run_succ_of_next hstep _).trans (ih rfl)
    · obtain ⟨r, hrefused⟩ := exec_setInputs_of_not_legal hlegal
      rw [hrefused] at hstep ⊢
      exact run_succ_of_refused hstep _

/-- A run from a legal state completes, in a legal state (R203). -/
theorem serveAll_completes (p : List Instr) {s : State} (h : s.Legal) :
    ∃ t, serveAll p s = .next t ∧ t.Legal :=
  ⟨_, serveAll_of_legal p h, List.foldlRecOn p _ h fun _ ht i _ => handlerOf_legal i ht⟩

/-- Settles O7: one step serves one word, and no event sees the words still to come. -/
theorem runOfWordsIsRunOfEvents : Obligations.RunOfWordsIsRunOfEvents := fun ws s h =>
  ⟨run_words ws h, fun hlegal => serveAll_completes (ws.map decodeWord) (s := s.setInputs []) hlegal⟩

/-! ## What the buffer holds after a refresh -/

/-- R121 in both modes, as a number. -/
theorem displayHour_val (c : Config) (hours : Fin 24) :
    (displayHour c hours).val =
      if c.mode12H then if hours.val % 12 = 0 then 12 else hours.val % 12 else hours.val := by
  split
  · next h12 => exact displayHour_12 h12 hours
  · next h24 => rw [displayHour_24 (Bool.eq_false_iff.mpr h24)]

/-- R124 in both phases. -/
theorem colonPattern_eq (c : Config) (seconds : Nat) :
    colonPattern c seconds = if seconds % 2 = 1 then c.segTable[10] else blankPattern := by
  split
  · next hodd => exact colonPattern_odd hodd
  · next heven => exact colonPattern_even (Nat.mod_two_ne_one.mp heven)

/-- The table read of a digit is within the table (R56, R128), and gives the digit's pattern (R123). -/
theorem segTable_getElem?_digit (c : Config) (d : Fin 10) : c.segTable[d.val]? = some (digitPattern c d) := by
  rw [digitPattern_getElem, Vector.getElem?_eq_getElem]

/-- The events that refresh leave the encoding of the time they end with (R130). -/
theorem handlerOf_buf_of_refreshing {i : Instr} (hi : i ∈ [Instr.clktick, .btntickMin, .btntickHr]) {s t : State}
    (ht : t = handlerOf i s) : t.buf = bufWriteAll (encodeTime s.cfg t.hours t.minutes t.seconds) := by
  subst ht
  simp only [List.mem_cons, List.not_mem_nil, or_false] at hi
  obtain rfl | rfl | rfl := hi
  · simp [handlerOf]
  · rfl
  · rfl

/-- Settles O29: each entry is the field of the encoding that R51 puts there. -/
theorem refreshedBufferShowsTheTime : Obligations.RefreshedBufferShowsTheTime := by
  intro i s hi hlegal
  refine ⟨_, exec_of_legal hlegal i, (displayHour s.cfg (handlerOf i s).hours).val, displayHour_val _ _, ?_⟩
  rw [handlerOf_buf_of_refreshing hi rfl]
  simp only [bufRead_bufWriteAll]
  exact ⟨segTable_getElem?_digit s.cfg (tensDigit _ _), segTable_getElem?_digit s.cfg (unitsDigit _),
    segTable_getElem?_digit s.cfg (tensDigit _ _), segTable_getElem?_digit s.cfg (unitsDigit _), colonPattern_eq s.cfg _⟩

/-! ## What a scan step latches -/

/-- Where the buffer encodes the time (R44), a read gives an entry of that one encoding. -/
theorem State.Inv.bufRead_eq {s : State} (h : s.Inv) (k : Fin 5) :
    bufRead s.buf k = (encodeTime s.cfg s.hours s.minutes s.seconds).get k := by
  rw [h.bufEncodes, bufRead_bufWriteAll]

/-- Settles O37: onto position k a scan step latches the buffer's entry k. -/
theorem scanLatchesAnEntryOfOneTime : Obligations.ScanLatchesAnEntryOfOneTime := by
  intro s hinv
  refine ⟨scanStep s, exec_of_legal hinv.legal .scantick, fun k hk => ?_⟩
  rw [scanStep_cursor] at hk
  rw [scanStep_lit hk]
  exact hinv.bufRead_eq k

end Sys2Proof.Machine
end

section
/-! The encoding's own statements (spec 30_encoding.md): the opcode map and the canonical words (R74 to R76), start lines
(R79), program text (R81), and how a word is delivered to the block (R82). -/

namespace Sys2Proof.Machine

/-! ## Words and events -/

/-- Settles O1, the table of R75 being sixteen closed words. -/
theorem sixteenWordsDecode : Obligations.SixteenWordsDecode := by
  unfold Obligations.SixteenWordsDecode
  decide

/-- A row of the opcode map selects exactly the words that decode to the row's event (R74). -/
theorem selects_iff_decodeWord_eq {r : OpcodeRow} (hr : r ∈ opcodeTable) (w : EventWord) :
    r.selects w = true ↔ decodeWord w = r.event := by
  revert w r
  decide

/-- Every event has its row in the opcode map (R74). -/
theorem exists_row_of_event (i : Instr) : ∃ r ∈ opcodeTable, i = r.event := by
  cases i <;> decide

/-- No event has two rows in the opcode map (R74). -/
theorem row_eq_of_event_eq : ∀ r ∈ opcodeTable, ∀ r' ∈ opcodeTable, r'.event = r.event → r' = r := by
  decide

/-- Settles O2: the row of the event a word decodes to selects the word, and any row that does is of that event. -/
theorem decodeSelectsTheMatchingRow : Obligations.DecodeSelectsTheMatchingRow := by
  intro w
  obtain ⟨r, hr, hevent⟩ := exists_row_of_event (decodeWord w)
  refine ⟨r, hr, (selects_iff_decodeWord_eq hr w).mpr hevent, hevent, fun r' hr' hsel => ?_⟩
  have hevent' : decodeWord w = r'.event := (selects_iff_decodeWord_eq hr' w).mp hsel
  exact row_eq_of_event_eq r hr r' hr' (hevent'.symm.trans hevent)

/-- The decoder undoes the encoder (R75). -/
@[simp] theorem decodeWord_encode (i : Instr) : decodeWord (encode i) = i := by
  cases i <;> rfl

/-- The words R75 lists as canonical. -/
theorem encode_mem_canonical (i : Instr) : (encode i).toNat ∈ [0x0, 0x1, 0x2, 0x3, 0x7, 0xB, 0xF] := by
  cases i <;> decide

/-- Settles O3; every event is well-formed (R77), so the premise is not used. -/
theorem encodedEventDecodesToItself : Obligations.EncodedEventDecodesToItself := fun i _ =>
  ⟨decodeWord_encode i, encode_mem_canonical i⟩

/-- Outside BTNTICK the kind of a word alone selects its event (R76). -/
theorem decodeWord_eq_of_kindField_eq {w w' : EventWord} (h : kindField w = kindField w')
    (hkind : kindField w ≠ 0b11#2) : decodeWord w = decodeWord w' := by
  have hcases : ∀ k : BitVec 2, k ≠ 0b11#2 → k = 0b00#2 ∨ k = 0b01#2 ∨ k = 0b10#2 := by decide
  unfold decodeWord
  rw [← h]
  obtain hk | hk | hk := hcases _ hkind <;> rw [hk] <;> rfl

/-- Settles O4: the two words decode to one event. -/
theorem levelBitsIgnoredOutsideButtonTicks : Obligations.LevelBitsIgnoredOutsideButtonTicks := by
  intro w w' s h hkind
  rw [decodeWord_eq_of_kindField_eq h hkind]

/-! ## Program text -/

/-- The digit of a word has the word as its value (R81). -/
theorem hexValue_hexDigit (w : EventWord) : hexValue (hexDigit w) = some w := by
  revert w
  decide

theorem decodeDigit_hexDigit (w : EventWord) : decodeDigit (hexDigit w) = .ok (decodeWord w) := by
  rw [decodeDigit, hexValue_hexDigit]

/-- A text whose first digit and whose rest decode, decodes to the events in that order (R81). -/
theorem decodeProgram_cons {c : Char} {cs : List Char} {i : Instr} {is : List Instr} (hc : decodeDigit c = .ok i)
    (hcs : decodeProgram cs = .ok is) : decodeProgram (c :: cs) = .ok (i :: is) := by
  rw [decodeProgram, hc, hcs]

/-- The text of any list of words decodes to their events, canonical words or not (R81). -/
theorem decodeProgram_map_hexDigit (ws : List EventWord) :
    decodeProgram (ws.map hexDigit) = .ok (ws.map decodeWord) := by
  induction ws with
  | nil => rfl
  | cons w ws ih => exact decodeProgram_cons (decodeDigit_hexDigit w) ih

/-- The text of a program is the text of its canonical words, so it decodes to the program. -/
theorem decodeProgram_encodeProgram (p : List Instr) : decodeProgram (encodeProgram p) = .ok p := by
  have htext : encodeProgram p = (p.map encode).map hexDigit := by
    rw [List.map_map]
    rfl
  have hevents : (p.map encode).map decodeWord = p := List.map_map.trans (List.map_id'' decodeWord_encode p)
  rw [htext, decodeProgram_map_hexDigit, hevents]

/-- Settles O5; every event is well-formed (R77), so the premise is not used. -/
theorem hexProgramRoundTrip : Obligations.HexProgramRoundTrip := fun p _ =>
  ⟨decodeProgram_encodeProgram p, List.length_map _⟩

/-! ## Start lines -/

theorem lastCursor_lt (c : Config) : lastCursor c < 8 := by
  unfold lastCursor
  split <;> decide

/-- The state of an accepted start line: reset, with another cursor and another time, and the buffer refreshed (R79). -/
def startLineState (c : Config) (hours : Fin 24) (minutes : Fin 60) (seconds : Nat) (cursor : Fin 8) : State :=
  recompute { (State.resetWith c).setCursor cursor with seconds := seconds, minutes := minutes, hours := hours }

/-- A start line in range is accepted (R79). -/
theorem startState_of_inRange {c : Config} (hc : c.legal = true) (hours : Fin 24) (minutes : Fin 60) {seconds : Nat}
    (hsec : seconds < c.rollover) {cursor : Fin 8} (hcur : cursor.val ≤ lastCursor c) :
    startState c hours minutes seconds cursor = .ok (startLineState c hours minutes seconds cursor) := by
  unfold startState
  rw [if_neg (by simp [hc]), dif_pos ⟨hours.isLt, minutes.isLt, hsec⟩, dif_pos hcur]
  rfl

/-- Only a start line in range is accepted (R24, U7). -/
theorem inRange_of_startState_ok {c : Config} {hours minutes seconds cursor : Nat} {s : State}
    (h : startState c hours minutes seconds cursor = .ok s) :
    hours < 24 ∧ minutes < 60 ∧ seconds < c.rollover ∧ cursor ≤ lastCursor c := by
  unfold startState at h
  split at h
  · cases h
  · split at h
    · next htime =>
      split at h
      · next hcur => exact ⟨htime.1, htime.2.1, htime.2.2, hcur⟩
      · cases h
    · cases h

/-- While no digit line is asserted the cursor may stand anywhere in its range (R25, R147). -/
theorem State.Inv.setCursor_of_blank {s : State} (h : s.Inv) (hdig : s.digL = 0) {k : Fin 8}
    (hk : k.val ≤ lastCursor s.cfg) : (s.setCursor k).Inv :=
  { h with
    cursorInRange := hk
    oneHot := .inl hdig }

/-- The start state keeps the invariant of reset: the digit lines are blank, and the buffer is refreshed after the time. -/
theorem startLineState_inv {c : Config} (hc : c.legal = true) (hours : Fin 24) (minutes : Fin 60) {seconds : Nat}
    (hsec : seconds < c.rollover) {cursor : Fin 8} (hcur : cursor.val ≤ lastCursor c) :
    (startLineState c hours minutes seconds cursor).Inv := by
  have hreset : (State.resetWith c).Inv := resetWith_inv hc [] pinsConsistent_resetWrites
  exact (hreset.setCursor_of_blank rfl hcur).refreshed hsec minutes hours

/-- Settles O42. The statement's bound of the cursor is `lastCursor`. -/
theorem startLineGivesAnInvariantState : Obligations.StartLineGivesAnInvariantState := by
  intro c h m sec k hc
  refine ⟨?_, fun hout => ?_⟩
  · rintro ⟨hh, hm, hsec, hk⟩
    have hk8 : k < 8 := Nat.lt_of_le_of_lt hk (lastCursor_lt c)
    exact ⟨_, startState_of_inRange hc ⟨h, hh⟩ ⟨m, hm⟩ hsec (cursor := ⟨k, hk8⟩) hk,
      startLineState_inv hc _ _ hsec hk, rfl, rfl, rfl, rfl, rfl, rfl, rfl⟩
  · cases hstart : startState c h m sec k with
    | error r => exact ⟨r, rfl⟩
    | ok s => exact absurd (inRange_of_startState_ok hstart) hout

/-! ## Delivery -/

/-- With no input left a step serves IDLE (R184, log 3). -/
theorem step_nil {s : State} (h : s.inputs = []) : step s = exec .idle s := by
  rw [step, h]

/-- Settles O6: IDLE, served at the end of the inputs, holds a legal state. -/
theorem stepServesTheDeliveredWord : Obligations.StepServesTheDeliveredWord := by
  refine ⟨fun s w rest h => step_word h, fun s hlegal h => ?_⟩
  rw [step_nil h]
  exact exec_of_legal hlegal .idle

end Sys2Proof.Machine
end

section
/-! The clock state machine's own statements (spec 40_clock_state_machine.md): `tick()` and CLKTICK (R101, R102), full circles
of edits (R103, R104), the period laws (R105), the order at a minute boundary (R106), and completion (R107). -/

namespace Sys2Proof.Machine

/-! ## One event -/

/-- Settles O8: in a legal state the event's handler runs, and handlers keep legality and the configuration. -/
theorem everyEventCompletesInALegalState : Obligations.EveryEventCompletesInALegalState := fun i s hlegal =>
  ⟨handlerOf i s, exec_of_legal hlegal i, handlerOf_legal i hlegal, handlerOf_cfg i s⟩

/-- The increment of R100 as the spec's comparison has it. -/
theorem incFin_val_ite {bound : Nat} (c : Fin bound) :
    (incFin c).val = if c.val = bound - 1 then 0 else c.val + 1 := by
  simp only [incFin_val, incMod, wrapsAt_iff]

/-- The increment of R100 as addition modulo the bound. -/
theorem incFin_val_mod {bound : Nat} (c : Fin bound) : (incFin c).val = (c.val + 1) % bound := by
  rw [incFin_val, incMod_eq_mod c.isLt]

/-- Settles O21: the three counters of `tick_eq`, as numbers. The range of `seconds` is not needed for it. -/
theorem tickResult : Obligations.TickResult := by
  intro s m h _ hm hh
  have hminutes : m = if s.seconds = s.cfg.rollover - 1 then incFin s.minutes else s.minutes := by
    apply Fin.ext
    rw [hm, apply_ite Fin.val, incFin_val_ite]
  have hhours : h = if s.seconds = s.cfg.rollover - 1 ∧ s.minutes = 59 then incFin s.hours else s.hours := by
    apply Fin.ext
    rw [hh, apply_ite Fin.val, incFin_val_ite]
    simp only [Fin.ext_iff, Fin.coe_ofNat_eq_mod]
  rw [tick_eq, hminutes, hhours]
  simp only [incMod, wrapsAt_iff]

/-- Under a legal configuration the colon entry tells the parity of `seconds`: a lit colon is not blank (R52, R124). -/
theorem colonPattern_eq_zero_iff {c : Config} (hc : c.legal = true) (seconds : Nat) :
    colonPattern c seconds = 0x00 ↔ seconds % 2 = 0 := by
  obtain ⟨-, -, hcolon⟩ := (configLegal_iff c).mp hc
  rw [colonPattern_eq]
  split
  · next hodd => simp [hcolon, hodd]
  · next heven => simp [blankPattern, Nat.mod_two_ne_one.mp heven]

/-- Under an even ROLLOVER the parity of `seconds` toggles, at the wrap too. -/
theorem incMod_mod_two {bound c : Nat} (heven : bound % 2 = 0) (h : c < bound) :
    incMod bound c % 2 = 0 ↔ ¬ c % 2 = 0 := by
  rw [incMod_eq_mod h, Nat.mod_mod_of_dvd _ (Nat.dvd_of_mod_eq_zero heven)]
  omega

/-- The four digits do not depend on `seconds` (R120). -/
theorem encodeTime_get_digit (c : Config) (hours : Fin 24) (minutes : Fin 60) (sec sec' : Nat) {a : Fin 5}
    (ha : a.val < 4) :
    (encodeTime c hours minutes sec).get a = (encodeTime c hours minutes sec').get a := by
  match a, ha with
  | 0, _ | 1, _ | 2, _ | 3, _ => rfl

/-- Settles O22: the handler of CLKTICK, and the encoding of the two times entry by entry. -/
theorem clockTickResult : Obligations.ClockTickResult := by
  refine ⟨fun w hw => decodeWord_eq_of_kindField_eq (w' := 0b0001#4) hw (by rw [kindField, hw]; decide),
    fun s hlegal => ⟨recompute (tick s), exec_of_legal hlegal .clktick, by rw [tick_eq]; rfl, fun henc => ⟨?_, ?_⟩⟩⟩
  · intro heven
    rw [henc, recompute_buf, bufRead_bufWriteAll, bufRead_bufWriteAll, tick_cfg, tick_seconds]
    change colonPattern _ _ = 0x00 ↔ colonPattern _ _ ≠ 0x00
    rw [Ne, colonPattern_eq_zero_iff hlegal.1, colonPattern_eq_zero_iff hlegal.1, incMod_mod_two heven hlegal.2]
  · intro hminutes hhours a ha
    rw [recompute_minutes] at hminutes
    rw [recompute_hours] at hhours
    rw [henc, recompute_buf, bufRead_bufWriteAll, bufRead_bufWriteAll, tick_cfg, hminutes, hhours]
    exact encodeTime_get_digit _ _ _ _ _ ha

/-! ## An edit and a tick at a minute boundary -/

/-- At the last tick of x:59 the hour advances (R101). -/
theorem tick_of_last_of_59 {s : State} (hsec : s.seconds = s.cfg.rollover - 1) (hmin : s.minutes = 59) :
    tick s = { s with seconds := 0, minutes := 0, hours := incFin s.hours } := by
  rw [tick, if_pos ((wrapsAt_iff _ _).mpr hsec), if_pos hmin]
  rfl

/-- At the last tick of any other minute the hour stays (R101). -/
theorem tick_of_last_of_ne_59 {s : State} (hsec : s.seconds = s.cfg.rollover - 1) (hmin : s.minutes ≠ 59) :
    tick s = { s with seconds := 0, minutes := incFin s.minutes } := by
  rw [tick, if_pos ((wrapsAt_iff _ _).mpr hsec), if_neg hmin]
  rfl

/-- Settles O26: the tick carries into the hour only while `minutes` are 59, and the edit before it has made them 0. -/
theorem editAndTickDoNotCommuteAtTheBoundary : Obligations.EditAndTickDoNotCommuteAtTheBoundary := by
  intro s h hlegal hsec hmin hh
  have hhours : incFin s.hours = h := Fin.ext (by rw [incFin_val_mod, hh])
  have hedit : incFin s.minutes = 0 := by rw [hmin]; rfl
  have htick := tick_of_last_of_59 hsec hmin
  have hticked : tick (recompute (advanceMinutesByEdit s)) =
      { recompute (advanceMinutesByEdit s) with seconds := 0, minutes := incFin (incFin s.minutes) } :=
    tick_of_last_of_ne_59 hsec (by simp [hedit])
  refine ⟨⟨_, serveAll_of_legal _ hlegal, ?_⟩, ⟨_, serveAll_of_legal _ hlegal, ?_⟩, ⟨_, serveAll_of_legal _ hlegal, ?_⟩,
    ⟨_, serveAll_of_legal _ hlegal, ?_⟩⟩
  · simp [handlerOf, htick, hhours]
  · simp [handlerOf, hedit]
  · simp only [List.foldl, handlerOf, htick]
    exact ⟨hhours, rfl, rfl⟩
  · simp only [List.foldl, handlerOf, hticked, hedit]
    exact ⟨rfl, rfl, rfl⟩

/-! ## Repeating one event -/

/-- A run of one event, repeated, is its handler iterated. -/
theorem serveAll_replicate (n : Nat) (i : Instr) {s : State} (hlegal : s.Legal) :
    serveAll (List.replicate n i) s = .next ((handlerOf i)^[n] s) := by
  induction n generalizing s with
  | zero => rfl
  | succ n ih =>
    rw [List.replicate_succ, serveAll, exec_of_legal hlegal]
    exact ih (handlerOf_legal i hlegal)

/-- Of the refreshes in a repetition only the last one shows, when the operation between them does not look at the
buffer. -/
theorem iterate_recompute {f : State → State} (hf : ∀ s, recompute (f (recompute s)) = recompute (f s)) (n : Nat)
    (s : State) : (fun t => recompute (f t))^[n + 1] s = recompute (f^[n + 1] s) := by
  induction n with
  | zero => rfl
  | succ n ih => rw [Function.iterate_succ_apply', ih, hf, Function.iterate_succ_apply' f (n + 1)]

theorem iterate_incFin_val {bound : Nat} (n : Nat) (c : Fin bound) : (incFin^[n] c).val = (c.val + n) % bound := by
  induction n with
  | zero => exact (Nat.mod_eq_of_lt c.isLt).symm
  | succ n ih => rw [Function.iterate_succ_apply', incFin_val_mod, ih, Nat.mod_add_mod, Nat.add_assoc]

/-- A counter incremented as often as its bound is back at its value. -/
theorem iterate_incFin_bound {bound : Nat} (c : Fin bound) : incFin^[bound] c = c :=
  Fin.ext (by rw [iterate_incFin_val, Nat.add_mod_right, Nat.mod_eq_of_lt c.isLt])

/-- Minute edits only increment `minutes` (R103). -/
theorem iterate_advanceMinutesByEdit (n : Nat) (s : State) :
    advanceMinutesByEdit^[n] s = s.setMinutes (incFin^[n] s.minutes) := by
  have hsemi : Function.Semiconj s.setMinutes incFin advanceMinutesByEdit := fun _ => rfl
  exact (hsemi.iterate_right n s.minutes).symm

/-- Hour edits only increment `hours` (R104). -/
theorem iterate_advanceHoursByEdit (n : Nat) (s : State) :
    advanceHoursByEdit^[n] s = s.setHours (incFin^[n] s.hours) := by
  have hsemi : Function.Semiconj s.setHours incFin advanceHoursByEdit := fun _ => rfl
  exact (hsemi.iterate_right n s.hours).symm

/-- Settles O20: the edits bring the counter around, and the last refresh encodes the time. -/
theorem fullCircleOfEditsRestoresTheTime : Obligations.FullCircleOfEditsRestoresTheTime := by
  refine fun s hlegal => ⟨(serveAll_replicate 60 .btntickMin hlegal).trans (congrArg _ ?_),
    (serveAll_replicate 24 .btntickHr hlegal).trans (congrArg _ ?_)⟩
  · calc (handlerOf .btntickMin)^[60] s = recompute (advanceMinutesByEdit^[60] s) := iterate_recompute (fun _ => rfl) 59 s
      _ = recompute (s.setMinutes s.minutes) := by rw [iterate_advanceMinutesByEdit, iterate_incFin_bound]
  · calc (handlerOf .btntickHr)^[24] s = recompute (advanceHoursByEdit^[24] s) := iterate_recompute (fun _ => rfl) 23 s
      _ = recompute (s.setHours s.hours) := by rw [iterate_advanceHoursByEdit, iterate_incFin_bound]

/-! ## The clock as a count of ticks into the day -/

/-- The state with the time that is `d` clock ticks after midnight, days dropped (R108). -/
def State.atDayTick (s : State) (d : Nat) : State :=
  { s with
    seconds := d % s.cfg.rollover
    minutes := ⟨d / s.cfg.rollover % 60, Nat.mod_lt _ (by decide)⟩
    hours := ⟨d / s.cfg.rollover / 60 % 24, Nat.mod_lt _ (by decide)⟩ }

theorem dayTicks_atDayTick (s : State) (d : Nat) : dayTicks (s.atDayTick d) = d % (1440 * s.cfg.rollover) := by
  have hday (q : Nat) : q / 60 % 24 * 60 + q % 60 = q % 1440 := by omega
  rw [Nat.mul_comm, Nat.mod_mul, Nat.add_comm, Nat.mul_comm, ← hday]
  rfl

section
variable {s : State} (h : s.seconds < s.cfg.rollover)
include h

theorem dayTicks_mod_rollover : dayTicks s % s.cfg.rollover = s.seconds := by
  rw [dayTicks, Nat.mul_add_mod_self_right, Nat.mod_eq_of_lt h]

theorem dayTicks_div_rollover : dayTicks s / s.cfg.rollover = s.hours.val * 60 + s.minutes.val := by
  rw [dayTicks, Nat.mul_comm, Nat.mul_add_div (by omega), Nat.div_eq_of_lt h, Nat.add_zero]

/-- `k` whole minutes after the present time: the minutes carry into the hours, and `seconds` stay (R105). -/
theorem atDayTick_add_minutes (k : Nat) :
    s.atDayTick (dayTicks s + k * s.cfg.rollover) =
      { s with
        minutes := ⟨(s.minutes.val + k) % 60, Nat.mod_lt _ (by decide)⟩
        hours := ⟨(s.hours.val + (s.minutes.val + k) / 60) % 24, Nat.mod_lt _ (by decide)⟩ } := by
  have hsec := Nat.add_mul_mod_self_right (dayTicks s) k s.cfg.rollover
  have hdiv := Nat.add_mul_div_right (dayTicks s) k (Nat.zero_lt_of_lt h)
  rw [dayTicks_mod_rollover h] at hsec
  rw [dayTicks_div_rollover h] at hdiv
  simp only [State.atDayTick, hsec, hdiv]
  congr 2
  · omega
  · omega

/-- A state in range is the one of its own count of ticks. -/
theorem atDayTick_dayTicks : s.atDayTick (dayTicks s) = s := by
  have hmin : (⟨(s.minutes.val + 0) % 60, Nat.mod_lt _ (by decide)⟩ : Fin 60) = s.minutes := Fin.ext (by simp)
  have hhr : (⟨(s.hours.val + (s.minutes.val + 0) / 60) % 24, Nat.mod_lt _ (by decide)⟩ : Fin 24) = s.hours :=
    Fin.ext (by simp only [Nat.add_zero]; omega)
  have hzero := atDayTick_add_minutes h 0
  rwa [hmin, hhr, Nat.zero_mul] at hzero

end

/-- A remainder goes up by one and wraps, as the comparison of R100 has it. -/
theorem add_one_mod_eq_ite {bound : Nat} (hpos : 0 < bound) (d : Nat) :
    (d + 1) % bound = if d % bound = bound - 1 then 0 else d % bound + 1 := by
  rw [← Nat.mod_add_mod, ← incMod_eq_mod (Nat.mod_lt d hpos)]
  simp only [incMod, wrapsAt_iff]

/-- A quotient steps exactly where the remainder wraps. -/
theorem add_one_div_eq_ite {bound : Nat} (hpos : 0 < bound) (d : Nat) :
    (d + 1) / bound = if d % bound = bound - 1 then d / bound + 1 else d / bound := by
  have hwrap : bound ∣ d + 1 ↔ d % bound = bound - 1 := by
    rw [Nat.dvd_iff_mod_eq_zero, add_one_mod_eq_ite hpos]
    split_ifs <;> simp [*]
  rw [Nat.succ_div, if_congr hwrap rfl rfl]
  split <;> rfl

/-- One tick is one more clock tick into the day: each cascade is the carry of a division (R101). -/
theorem tick_atDayTick {s : State} (hpos : 0 < s.cfg.rollover) (d : Nat) :
    tick (s.atDayTick d) = s.atDayTick (d + 1) := by
  have hdiv := add_one_div_eq_ite hpos d
  have hmin : (d + 1) / s.cfg.rollover % 60 = if d % s.cfg.rollover = s.cfg.rollover - 1 then
      if d / s.cfg.rollover % 60 = 59 then 0 else d / s.cfg.rollover % 60 + 1 else d / s.cfg.rollover % 60 := by
    rw [hdiv]
    split_ifs <;> omega
  have hhr : (d + 1) / s.cfg.rollover / 60 % 24 =
      if d % s.cfg.rollover = s.cfg.rollover - 1 ∧ d / s.cfg.rollover % 60 = 59 then
        if d / s.cfg.rollover / 60 % 24 = 23 then 0 else d / s.cfg.rollover / 60 % 24 + 1
      else d / s.cfg.rollover / 60 % 24 := by
    rw [hdiv]
    split_ifs <;> omega
  have htick := tickResult (s.atDayTick d) (s.atDayTick (d + 1)).minutes (s.atDayTick (d + 1)).hours
    (Nat.mod_lt d hpos) hmin hhr
  exact htick.trans (congrArg (State.setSeconds (s.atDayTick (d + 1))) (add_one_mod_eq_ite hpos d).symm)

/-! ## Runs of clock ticks -/

/-- `tick()` does not look at the buffer. -/
theorem recompute_tick_recompute (s : State) : recompute (tick (recompute s)) = recompute (tick s) := by
  rw [tick_eq, tick_eq]
  rfl

/-- `n` clock ticks add `n` to the count of ticks into the day. They touch the buffer besides, which encodes the time
at the end if it did at the start. -/
theorem serveAll_clkticks {s : State} (hlegal : s.Legal) (n : Nat) :
    ∃ b, serveAll (List.replicate n .clktick) s = .next ((s.atDayTick (dayTicks s + n)).setBuf b) ∧
      (s.buf = bufWriteAll (encodeTime s.cfg s.hours s.minutes s.seconds) →
        (s.atDayTick (dayTicks s + n)).setBuf b = recompute (s.atDayTick (dayTicks s + n))) := by
  rw [serveAll_replicate n .clktick hlegal]
  cases n with
  | zero =>
    rw [Nat.add_zero, atDayTick_dayTicks hlegal.2]
    exact ⟨s.buf, rfl, fun henc => congrArg s.setBuf henc⟩
  | succ n =>
    have hsemi : Function.Semiconj s.atDayTick Nat.succ tick := fun d =>
      (tick_atDayTick (Nat.zero_lt_of_lt hlegal.2) d).symm
    have hticks := (hsemi.iterate_right (n + 1) (dayTicks s)).symm
    rw [Nat.succ_iterate, atDayTick_dayTicks hlegal.2] at hticks
    have hrun := (iterate_recompute recompute_tick_recompute n s).trans (congrArg recompute hticks)
    exact ⟨_, congrArg _ hrun, fun _ => rfl⟩

/-- Settles O23, the clock being a count of ticks into the day. -/
theorem clockTicksAddUpModuloTheDay : Obligations.ClockTicksAddUpModuloTheDay := by
  intro n s hlegal
  obtain ⟨b, hrun, henc⟩ := serveAll_clkticks hlegal n
  exact ⟨_, hrun, dayTicks_atDayTick s _, Nat.mod_lt _ (Nat.zero_lt_of_lt hlegal.2), rfl,
    fun hbuf => congrArg State.buf (henc hbuf)⟩

/-- After a run of `k` whole minutes of clock ticks: the minutes carry into the hours, and `seconds` are the same. -/
theorem serveAll_minutes {s : State} (hlegal : s.Legal) (k : Nat) :
    ∃ t, serveAll (List.replicate (k * s.cfg.rollover) .clktick) s = .next t ∧ t.seconds = s.seconds ∧
      t.minutes.val = (s.minutes.val + k) % 60 ∧ t.hours.val = (s.hours.val + (s.minutes.val + k) / 60) % 24 := by
  obtain ⟨b, hrun, -⟩ := serveAll_clkticks hlegal (k * s.cfg.rollover)
  rw [atDayTick_add_minutes hlegal.2] at hrun
  exact ⟨_, hrun, rfl, rfl, rfl⟩

/-- Settles O24: runs of 1, 60 and 1440 whole minutes. -/
theorem periodLawsOfTheClock : Obligations.PeriodLawsOfTheClock := by
  intro s m h hlegal hm hh
  refine ⟨?_, ?_, ?_⟩
  · obtain ⟨t, hrun, hsec, hmin, hhr⟩ := serveAll_minutes hlegal 1
    rw [Nat.one_mul] at hrun
    refine ⟨t, hrun, hsec, Fin.ext (hmin.trans hm.symm), Fin.ext ?_⟩
    rw [apply_ite Fin.val]
    split <;> omega
  · obtain ⟨t, hrun, hsec, hmin, hhr⟩ := serveAll_minutes hlegal 60
    exact ⟨t, hrun, hsec, Fin.ext (by omega), Fin.ext (by omega)⟩
  · obtain ⟨t, hrun, hsec, hmin, hhr⟩ := serveAll_minutes hlegal 1440
    exact ⟨t, hrun, hsec, Fin.ext (by omega), Fin.ext (by omega)⟩

end Sys2Proof.Machine
end

section
/-! The display encoder's own statements (spec 41_display_encoder.md): the display hour (R121), and the colon entry of a
buffer that encodes the time (R124). -/

namespace Sys2Proof.Machine

/-- Settles O28: in 12-hour mode both sides are functions of the hour alone, which agree on all 24 hours. -/
theorem displayHourInBothModes : Obligations.DisplayHourInBothModes := by
  refine fun c h => ⟨fun h24 => displayHour_24 h24 h, fun h12 => ?_⟩
  rw [displayHour_12 h12]
  clear h12
  revert h
  decide

/-- Where the buffer encodes the time (R44), its last entry is the colon of the count (R51, R124). -/
theorem State.Inv.bufRead_colon {s : State} (h : s.Inv) : bufRead s.buf 4 = colonPattern s.cfg s.seconds :=
  h.bufRead_eq 4

/-- Settles O30: under the legal configuration of the invariant the colon pattern tells the parity of `seconds`. -/
theorem colonLitExactlyAtOddCounts : Obligations.ColonLitExactlyAtOddCounts := by
  intro s hinv
  obtain ⟨hconfig, -⟩ := hinv.legal
  rw [hinv.bufRead_colon, Ne, colonPattern_eq_zero_iff hconfig]
  exact Nat.mod_two_ne_zero

end Sys2Proof.Machine
end

section
/-! The multiplex scanner's own statements (spec 42_multiplex_scanner.md): the scan step (R140 to R146), the cursor's bound
(R149), one full scan cycle (R147, R148), and that the scanner only reads the buffer (R151). -/

namespace Sys2Proof.Machine

/-! ## One scan step -/

/-- Settles O31, by the two places a scan step can land on. -/
theorem scanStepDeassertsThenAssertsOneLine : Obligations.ScanStepDeassertsThenAssertsOneLine := by
  intro s hlegal
  have hexec : exec .scantick s = .next (scanStep s) := exec_of_legal hlegal .scantick
  obtain ⟨i, hi, heq⟩ | ⟨h5, heq⟩ := scanStep_cases s <;> rw [heq] at hexec
  · refine ⟨_, [.seg (bufRead s.buf i), .dig (onehot5 i)], hexec, rfl, fun k hk => ?_⟩
    obtain rfl : i = k := Fin.ext (hi.symm.trans hk)
    exact ⟨rfl, fun j => onehotLinesAreExclusive i j⟩
  · refine ⟨_, [.seg blankPattern], hexec, rfl, fun k hk => ?_⟩
    have hk5 : 5 = k.val := h5.symm.trans hk
    omega

/-- Settles O32: the level bits are ignored, and the next cursor says which of the two scan steps it is. -/
theorem scanStepResult : Obligations.ScanStepResult := by
  refine ⟨fun w hw => decodeWord_eq_of_kindField_eq (w' := 0b0010#4) hw (by rw [kindField, hw]; decide),
    fun s next hlegal hnext => ?_⟩
  have hcursor : (nextCursor s.cfg s.cursor).val = next := (nextCursor_val s.cfg s.cursor).trans hnext.symm
  have hexec : exec .scantick s = .next (scanStep s) := exec_of_legal hlegal .scantick
  refine ⟨fun k c hk hc => ?_, fun h5 => ?_⟩
  · obtain rfl : nextCursor s.cfg s.cursor = c := Fin.ext (hcursor.trans hc.symm)
    rw [hexec, scanStep_lit (hcursor.trans hk.symm)]
  · have hblank : nextCursor s.cfg s.cursor = 5 := Fin.ext (hcursor.trans h5)
    rw [hexec, scanStep_blank (hcursor.trans h5), hblank]
    rfl

/-- Past the five positions a scan step blanks the segment latch (R145). -/
theorem scanStep_segL_of_le {s : State} (h : 5 ≤ (scanStep s).cursor.val) : (scanStep s).segL = 0x00 := by
  rw [scanStep_cursor] at h
  obtain ⟨i, hi, -⟩ | ⟨-, heq⟩ := scanStep_cases s
  · omega
  · rw [heq]
    rfl

/-- From the last position or beyond, the next cursor is 0 (R142). -/
theorem nextCursor_of_lastCursor_le {c : Config} {k : Fin 8} (h : lastCursor c ≤ k.val) : nextCursor c k = 0 :=
  dif_pos h

/-- Settles O33. The statement's last position is `lastCursor`. -/
theorem scanStepBoundsTheCursor : Obligations.ScanStepBoundsTheCursor := by
  rintro s last hlegal rfl
  refine ⟨scanStep s, exec_of_legal hlegal .scantick, ?_, fun hlast => ?_, scanStep_segL_of_le⟩
  · rw [scanStep_cursor]
    exact nextCursor_le s.cfg s.cursor
  · rw [scanStep_cursor]
    exact nextCursor_of_lastCursor_le hlast

/-! ## One full scan cycle -/

/-- The cursor values that `n` scan steps from the cursor `k` land on, in order (R142). -/
def landings (c : Config) (k : Fin 8) (n : Nat) : List (Fin 8) := List.iterate (nextCursor c) (nextCursor c k) n

/-- The cursor value of a position. -/
abbrev positionCursor (i : Fin 5) : Fin 8 := i.castLE (by decide)

/-- The pin writes of scan steps that land on the cursors `ks`: line `i` is asserted as often as position `i` is landed
on (R144), and no write asserts two lines (R147). -/
structure WritesOfLandings (ks : List (Fin 8)) (ws : List PinWrite) : Prop where
  assertsEach : ∀ i : Fin 5, ws.count (.dig (onehot5 i)) = ks.count (positionCursor i)
  atMostOne : ∀ d : DigitLines, .dig d ∈ ws → d = 0 ∨ ∃ i : Fin 5, d = onehot5 i

theorem writesOfLandings_nil : WritesOfLandings [] [] := ⟨fun _ => rfl, by simp⟩

theorem WritesOfLandings.append {ks ks' : List (Fin 8)} {ws ws' : List PinWrite} (h : WritesOfLandings ks ws)
    (h' : WritesOfLandings ks' ws') : WritesOfLandings (ks ++ ks') (ws ++ ws') where
  assertsEach i := by rw [List.count_append, List.count_append, h.assertsEach, h'.assertsEach]
  atMostOne d hd := (List.mem_append.mp hd).elim (h.atMostOne d) (h'.atMostOne d)

theorem onehot5_ne_zero (i : Fin 5) : onehot5 i ≠ 0#5 := by
  revert i
  decide

theorem onehot5_injective : Function.Injective onehot5 := by
  unfold Function.Injective
  decide

theorem positionCursor_ne_five (i : Fin 5) : positionCursor i ≠ 5 := by
  revert i
  decide

/-- The writes of a scan step onto a position (R146). -/
theorem writesOfLandings_lit (k : Fin 5) (p : Byte) :
    WritesOfLandings [positionCursor k] [.dig 0, .seg p, .dig (onehot5 k)] where
  assertsEach i := by simp [List.count_cons, (onehot5_ne_zero i).symm, onehot5_injective.eq_iff]
  atMostOne d hd := by
    have hcases : d = 0 ∨ d = onehot5 k := by simpa using hd
    exact hcases.imp_right fun h => ⟨k, h⟩

/-- The writes of a scan step onto the blank sentinel, which assert nothing (R145). -/
theorem writesOfLandings_blank (p : Byte) : WritesOfLandings [5] [.dig 0, .seg p] where
  assertsEach i := by simp [(onehot5_ne_zero i).symm, (positionCursor_ne_five i).symm]
  atMostOne d hd := .inl (by simpa using hd)

/-- A scan step writes the pins as for its one landing. -/
theorem scanStep_pinLog (s : State) :
    ∃ ws, (scanStep s).pinLog = s.pinLog ++ ws ∧ WritesOfLandings [nextCursor s.cfg s.cursor] ws := by
  obtain ⟨k, hk, heq⟩ | ⟨h5, heq⟩ := scanStep_cases s <;> rw [heq]
  · have hpos : nextCursor s.cfg s.cursor = positionCursor k := Fin.ext hk
    exact ⟨_, rfl, hpos ▸ writesOfLandings_lit k _⟩
  · have hfive : nextCursor s.cfg s.cursor = 5 := Fin.ext h5
    exact ⟨_, rfl, hfive ▸ writesOfLandings_blank _⟩

/-- Other events between the scan steps play no part: a run moves the cursor once and writes the pins once for each scan
tick. -/
theorem foldl_handlerOf_scans (p : List Instr) (s : State) :
    (p.foldl (fun t i => handlerOf i t) s).cursor = (nextCursor s.cfg)^[p.count .scantick] s.cursor ∧
      ∃ ws, (p.foldl (fun t i => handlerOf i t) s).pinLog = s.pinLog ++ ws ∧
        WritesOfLandings (landings s.cfg s.cursor (p.count .scantick)) ws := by
  induction p generalizing s with
  | nil => exact ⟨rfl, [], (List.append_nil _).symm, writesOfLandings_nil⟩
  | cons i is ih =>
    obtain ⟨hcursor, ws, hlog, hws⟩ := ih (handlerOf i s)
    rw [handlerOf_cfg] at hcursor hws
    rw [List.foldl_cons, hcursor, hlog]
    by_cases hi : i = .scantick
    · subst hi
      obtain ⟨ws₁, hlog₁, hws₁⟩ := scanStep_pinLog s
      rw [List.count_cons_self]
      simp only [handlerOf, scanStep_cursor, hlog₁, List.append_assoc] at hws ⊢
      exact ⟨rfl, ws₁ ++ ws, rfl, hws₁.append hws⟩
    · obtain ⟨hcur, -, -, hpin⟩ := handlerOf_scan_registers s hi
      rw [List.count_cons_of_ne hi, hpin, hcur]
      rw [hcur] at hws
      exact ⟨rfl, ws, rfl, hws⟩

/-- Of the configuration, the cursor's path depends on the blank phase alone (R142). -/
theorem nextCursor_congr {c c' : Config} (h : c.blankPhase = c'.blankPhase) : nextCursor c = nextCursor c' := by
  funext k
  apply Fin.ext
  rw [nextCursor_val, nextCursor_val, lastCursor, lastCursor, h]

/-- One configuration for each of the cursor's two paths. -/
def scanConfig (blankPhase : Bool) : Config := { defaultConfig with blankPhase := blankPhase }

/-- One cycle of scan steps gives the cursor back and lands on each position once (R148): a finite fact about the cursors
in range, with and without the blank phase. -/
theorem nextCursor_cycle {c : Config} {k : Fin 8} (hk : k.val ≤ lastCursor c) :
    (nextCursor c)^[lastCursor c + 1] k = k ∧
      ∀ i : Fin 5, (landings c k (lastCursor c + 1)).count (positionCursor i) = 1 := by
  have hcycle : ∀ b, ∀ k : Fin 8, k.val ≤ lastCursor (scanConfig b) →
      (nextCursor (scanConfig b))^[lastCursor (scanConfig b) + 1] k = k ∧
        ∀ i : Fin 5, (landings (scanConfig b) k (lastCursor (scanConfig b) + 1)).count (positionCursor i) = 1 := by
    decide
  have hpath : nextCursor c = nextCursor (scanConfig c.blankPhase) := nextCursor_congr rfl
  rw [landings, hpath]
  exact hcycle c.blankPhase k hk

/-- Settles O35: a run of one cycle's scan ticks, which lands on each position once. -/
theorem scanCycleAssertsEachLineOnce : Obligations.ScanCycleAssertsEachLineOnce := by
  intro s p hlegal hcursor hcount
  have hlast : p.count .scantick = lastCursor s.cfg + 1 := by
    rw [hcount, lastCursor]
    split <;> rfl
  obtain ⟨hback, hones⟩ := nextCursor_cycle (c := s.cfg) hcursor
  obtain ⟨hcur, ws, hlog, hws⟩ := foldl_handlerOf_scans p s
  rw [hlast] at hcur hws
  exact ⟨_, ws, serveAll_of_legal p hlegal, hlog, hcur.trans hback,
    fun i => (hws.assertsEach i).trans (hones i), hws.atMostOne⟩

/-! ## The scanner only reads -/

/-- The state with the registers of the scanner blanked: what of a state scan ticks have no part in (R151). -/
def State.withoutScanner (s : State) : State := { s with cursor := 0, segL := 0, digL := 0, pinLog := [] }

/-- The time and the buffer are no registers of the scanner. -/
theorem time_eq_of_withoutScanner_eq {s u : State} (h : s.withoutScanner = u.withoutScanner) :
    s.seconds = u.seconds ∧ s.minutes = u.minutes ∧ s.hours = u.hours ∧ s.buf = u.buf :=
  ⟨(congrArg State.seconds h :), (congrArg State.minutes h :), (congrArg State.hours h :), (congrArg State.buf h :)⟩

/-- A scan step writes only the registers of the scanner (R151). -/
theorem withoutScanner_scanStep (s : State) : (scanStep s).withoutScanner = s.withoutScanner := by
  obtain ⟨i, -, heq⟩ | ⟨-, heq⟩ := scanStep_cases s <;> rw [heq] <;> rfl

/-- No event but a scan tick sees the scanner's registers. -/
theorem withoutScanner_handlerOf {i : Instr} (hi : i ≠ .scantick) (s : State) :
    (handlerOf i s).withoutScanner = handlerOf i s.withoutScanner := by
  cases i with
  | idle | btntickNone | btntickBoth | btntickMin | btntickHr => rfl
  | clktick =>
    simp only [handlerOf, tick_eq]
    rfl
  | scantick => exact absurd rfl hi

/-- A run, less the scanner's registers, is the run of the other events (R210). -/
theorem withoutScanner_foldl (p : List Instr) (s : State) :
    (p.foldl (fun t i => handlerOf i t) s).withoutScanner =
      (p.filter fun i => i ≠ .scantick).foldl (fun t i => handlerOf i t) s.withoutScanner := by
  induction p generalizing s with
  | nil => rfl
  | cons i is ih =>
    rw [List.foldl_cons, ih]
    by_cases hi : i = .scantick
    · subst hi
      rw [List.filter_cons_of_neg (by simp), handlerOf, withoutScanner_scanStep]
    · rw [List.filter_cons_of_pos (by simpa using hi), List.foldl_cons, withoutScanner_handlerOf hi]

/-- Settles O36: less the scanner's registers both runs are the run of the other events, from the same state. -/
theorem scansDoNotTouchTheTime : Obligations.ScansDoNotTouchTheTime := by
  intro s p hlegal
  refine ⟨_, _, serveAll_of_legal p hlegal, serveAll_of_legal _ hlegal, ?_⟩
  have hothers := withoutScanner_foldl (p.filter fun i => i ≠ .scantick) s
  rw [List.filter_filter, funext fun _ => Bool.and_self _] at hothers
  have hsame := (withoutScanner_foldl p s).trans hothers.symm
  exact time_eq_of_withoutScanner_eq hsame

end Sys2Proof.Machine
end

section
/-! The edit dispatcher's own statements (spec 43_button_dispatch.md): what the pair of levels selects (R161), the four
results (R162 to R165), and that a minute edit leaves the time of the next rollover (R168). -/

namespace Sys2Proof.Machine

/-! ## An edit and the next rollover -/

/-- Clock ticks within the running minute only count `seconds` up. -/
theorem atDayTick_within_minute {s : State} {k : Nat} (h : s.seconds + k < s.cfg.rollover) :
    s.atDayTick (dayTicks s + k) = s.setSeconds (s.seconds + k) := by
  rw [dayTicks, Nat.add_assoc]
  exact atDayTick_dayTicks (s := s.setSeconds (s.seconds + k)) h

/-- ROLLOVER - `seconds` clock ticks lead to the first tick of the next minute. -/
theorem atDayTick_next_minute {s : State} (h : s.seconds < s.cfg.rollover) :
    (s.atDayTick (dayTicks s + (s.cfg.rollover - s.seconds))).seconds = 0 ∧
      (s.atDayTick (dayTicks s + (s.cfg.rollover - s.seconds))).minutes.val = (s.minutes.val + 1) % 60 := by
  have hfirst := atDayTick_add_minutes (s := s.setSeconds 0) (Nat.zero_lt_of_lt h) 1
  have hticks : dayTicks s + (s.cfg.rollover - s.seconds) = dayTicks (s.setSeconds 0) + 1 * s.cfg.rollover := by
    simp only [dayTicks, State.setSeconds_hours, State.setSeconds_minutes, State.setSeconds_cfg,
      State.setSeconds_seconds]
    omega
  rw [hticks]
  exact ⟨congrArg State.seconds hfirst, congrArg (fun t => t.minutes.val) hfirst⟩

/-- Settles O25: the edit keeps `seconds`, and the clock ticks after it are counted from the edited time. -/
theorem minuteEditDoesNotMoveTheRollover : Obligations.MinuteEditDoesNotMoveTheRollover := by
  intro s k m m' hlegal _ hm hm'
  have hedited : (handlerOf .btntickMin s).minutes = m := Fin.ext ((incFin_val_mod s.minutes).trans hm.symm)
  have hseconds : (handlerOf .btntickMin s).seconds < (handlerOf .btntickMin s).cfg.rollover :=
    (handlerOf_legal .btntickMin hlegal).2
  obtain ⟨b, hrun, -⟩ := serveAll_clkticks (handlerOf_legal .btntickMin hlegal) k
  refine ⟨_, by rw [serveAll, exec_of_legal hlegal]; exact hrun, fun hk => ?_, fun hk => ?_⟩
  · have hwithin : (handlerOf .btntickMin s).seconds + k < (handlerOf .btntickMin s).cfg.rollover :=
      Nat.add_lt_of_lt_sub' hk
    rw [atDayTick_within_minute hwithin]
    exact ⟨hedited, rfl, rfl⟩
  · obtain ⟨hsec, hmin⟩ := atDayTick_next_minute hseconds
    rw [hedited] at hmin
    subst hk
    exact ⟨Fin.ext (hmin.trans (by omega)), hsec⟩

/-! ## The four button events -/

/-- Settles O15: the handler of BTNTICK.NONE is the identity, and 0x3 is its canonical word. -/
theorem noButtonChangesNothing : Obligations.NoButtonChangesNothing :=
  ⟨decodeWord_encode .btntickNone, fun _ hlegal => exec_of_legal hlegal .btntickNone⟩

/-- Settles O16: the handler of BTNTICK.BOTH is the identity, and 0xF is its canonical word. -/
theorem bothButtonsChangeNothing : Obligations.BothButtonsChangeNothing :=
  ⟨decodeWord_encode .btntickBoth, fun _ hlegal => exec_of_legal hlegal .btntickBoth⟩

/-- Settles O17: the given value is the incremented one, and the refresh encodes it. -/
theorem minuteEditResult : Obligations.MinuteEditResult := by
  refine ⟨decodeWord_encode .btntickMin, fun s m hlegal hm => ?_⟩
  have hinc : m = incFin s.minutes := Fin.ext (hm.trans (incFin_val_ite s.minutes).symm)
  rw [exec_of_legal hlegal, hinc]
  rfl

/-- Settles O18: the given value is the incremented one, and the refresh encodes it; the display hours are those of
R121. -/
theorem hourEditResult : Obligations.HourEditResult := by
  refine ⟨decodeWord_encode .btntickHr, fun s h hlegal hh => ?_, fun c h12 => ?_⟩
  · have hinc : h = incFin s.hours := Fin.ext (hh.trans (incFin_val_ite s.hours).symm)
    rw [exec_of_legal hlegal, hinc]
    rfl
  · refine List.map_injective_iff.mpr Fin.val_injective ?_
    simp only [List.map, displayHour_12 h12]
    decide

/-- A word of kind BTNTICK is the event its two levels select (R74, R161). -/
theorem decodeWord_button (m h : Bool) : decodeWord (eventWord h m 0b11#2) = buttonEvent m h := by
  cases m <;> cases h <;> rfl

/-- The edit the levels select, if any, is followed by a refresh (R161, R166). -/
theorem handlerOf_buttonEvent (m h : Bool) (s : State) :
    handlerOf (buttonEvent m h) s =
      if m = true ∧ h = false then recompute (advanceMinutesByEdit s)
      else if h = true ∧ m = false then recompute (advanceHoursByEdit s)
      else s := by
  cases m <;> cases h <;> rfl

/-- Settles O19, by the event the levels select. -/
theorem buttonLevelsSelectTheEdit : Obligations.ButtonLevelsSelectTheEdit := by
  intro m h s hlegal
  rw [← handlerOf_buttonEvent, ← exec_of_legal hlegal, ← decodeWord_button]
  rfl

end Sys2Proof.Machine
end

section
/-! The system operations' own statements (spec 44_system_ops.md): IDLE (R180) and the time read accessor (R181). -/

namespace Sys2Proof.Machine

/-! ## IDLE -/

/-- The handler of IDLE is the identity, so the handlers of a program compose to the same without its IDLE steps. -/
theorem foldl_handlerOf_withoutIdle (p : List Instr) (s : State) :
    (p.filter fun i => i ≠ .idle).foldl (fun t i => handlerOf i t) s = p.foldl (fun t i => handlerOf i t) s := by
  induction p generalizing s with
  | nil => rfl
  | cons i p ih =>
    by_cases hi : i = .idle
    · subst hi
      exact ih s
    · rw [List.filter_cons_of_pos (by simpa using hi)]
      exact ih (handlerOf i s)

/-- Settles O14: a word of kind 00 is the event of the canonical word 0x0, and the handler of IDLE is the identity, alone
and within a program. -/
theorem idleChangesNothing : Obligations.IdleChangesNothing := by
  refine ⟨fun w hw => decodeWord_eq_of_kindField_eq (w' := 0b0000#4) hw (by rw [kindField, hw]; decide),
    fun s hlegal => ⟨exec_of_legal hlegal .idle, fun p => ?_⟩⟩
  rw [serveAll_of_legal _ hlegal, serveAll_of_legal _ hlegal, foldl_handlerOf_withoutIdle]

/-! ## The time read accessor -/

/-- In a legal state 8 bits are enough for `seconds`, as ROLLOVER is at most 256 (R9, R24). -/
theorem State.Legal.seconds_lt_256 {s : State} (h : s.Legal) : s.seconds < 256 := by
  obtain ⟨hconfig, hrange⟩ := h
  obtain ⟨-, hrollover, -⟩ := (configLegal_iff s.cfg).mp hconfig
  exact Nat.lt_of_lt_of_le hrange hrollover

/-- Settles O44: each counter is below two to the width of its output. -/
theorem readAccessorShowsTheCounters : Obligations.ReadAccessorShowsTheCounters := fun s hlegal =>
  ⟨Nat.mod_eq_of_lt (s.hours.isLt.trans (by decide)), Nat.mod_eq_of_lt (s.minutes.isLt.trans (by decide)),
    Nat.mod_eq_of_lt hlegal.seconds_lt_256⟩

end Sys2Proof.Machine
end

section
/-! The exceptions' own statements (spec 60_exceptions.md): a change of the configuration (R203), power-up (R220), and the
reference front-end (R221, R222). -/

namespace Sys2Proof.Machine

/-! ## A change of the configuration -/

/-- A configure input is taken from the inputs and answered by `configure` (log 13). -/
theorem step_configure {s : State} {c : Config} {rest : List Input} (h : s.inputs = .configure c :: rest) :
    step s = configure c (s.setInputs rest) := by
  rw [step, h]

/-- The configuration is compared before the state is looked at (R246, D26). -/
theorem configure_of_ne {s : State} {c : Config} (h : c ≠ s.cfg) : configure c s = .refused .configurationChange :=
  if_neg h

/-- Settles O13: taking the input leaves the configuration that is compared. -/
theorem configurationChangeIsRefused : Obligations.ConfigurationChangeIsRefused := by
  intro s c rest hinput hne
  rw [step_configure hinput]
  exact configure_of_ne (s := s.setInputs rest) hne

/-! ## Power-up -/

/-- A power-up input is taken from the inputs and answered by `powerUp` (R220). -/
theorem step_powerUp {s : State} {rest : List Input} (h : s.inputs = .powerUp :: rest) :
    step s = powerUp (s.setInputs rest) := by
  rw [step, h]

/-- Power-up under a legal configuration: the reset state of that configuration, which keeps the inputs to come and
continues the pin log (R233, log 12). -/
theorem powerUp_of_legal {s : State} (h : s.cfg.legal = true) :
    powerUp s = .next { State.resetWith s.cfg with inputs := s.inputs, pinLog := s.pinLog ++ resetWrites } :=
  if_neg (by simp [h])

/-- Settles O39: the two pin writes of the statement are those of `reset()`. -/
theorem powerUpResets : Obligations.PowerUpResets := by
  intro s rest hinput hlegal
  rw [step_powerUp hinput]
  exact powerUp_of_legal (s := s.setInputs rest) hlegal

/-! ## The front-end: the pending bits -/

/-- Settles O45: each bit is the disjunction of itself and its strobe. -/
theorem strobesSetTheirPendingBits : Obligations.StrobesSetTheirPendingBits := fun _ _ =>
  ⟨_, rfl, Bool.or_eq_true_iff, Bool.or_eq_true_iff, Bool.or_eq_true_iff, rfl⟩

section
variable (s : State) (src : TickSource)

/-- Clearing the bit of one source leaves the bits of the others (R222). -/
theorem pending_clearPending (src' : TickSource) :
    pending (clearPending s src) src' = (pending s src' && decide (src' ≠ src)) := by
  cases src <;> cases src' <;> simp [pending, clearPending]

/-- Clearing a bit writes nothing but the pending bits. -/
theorem clearPending_frame :
    { clearPending s src with pendClk := s.pendClk, pendScan := s.pendScan, pendBtn := s.pendBtn } = s := by
  cases src <;> rfl

/-- Legality does not speak of the pending bits. -/
theorem State.Legal.clearPending {s : State} (h : s.Legal) : (clearPending s src).Legal := by
  cases src <;> exact h

end

/-! ## The front-end: which source is served -/

section
variable {f : FrontEndInput} {s : State} {src : TickSource}

/-- With no source picked the front-end latches and delivers IDLE (R222). -/
theorem frontEndStep_of_pick_none (h : pickPending f (latchStrobes f s) = none) :
    frontEndStep f s = (0x0, latchStrobes f s) := by
  rw [frontEndStep, h]

/-- The source picked among the latched bits is delivered, and its bit cleared (R222). -/
theorem frontEndStep_of_pick_some (h : pickPending f (latchStrobes f s) = some src) :
    frontEndStep f s = (sourceWord f src, clearPending (latchStrobes f s) src) := by
  rw [frontEndStep, h]

/-- Under a fixed order the first pending source of that order is picked (R222). -/
theorem pickPending_of_fixed {p : Priority} (h : s.cfg.serviceOrder = .fixed p) :
    pickPending f s = (Priority.sources p).find? (pending s) := by
  rw [pickPending, h]

/-- Where the order is open the first pending source of the environment's preference is picked (R209, log 11). -/
theorem pickPending_of_anyPending (h : s.cfg.serviceOrder = .anyPending) :
    pickPending f s = (Priority.sources f.prefer).find? (pending s) := by
  rw [pickPending, h]

/-- Some source is picked as soon as one is pending. -/
theorem exists_pickPending_of_pending (f : FrontEndInput) (h : pending s src = true) :
    ∃ src', pickPending f s = some src' := by
  refine Option.ne_none_iff_exists'.mp fun hnone => ?_
  rw [(pickPending_none f s).mp hnone src] at h
  contradiction

/-- No source before the picked one in a fixed order is pending (R222). -/
theorem not_pending_before_pick {p : Priority} (horder : s.cfg.serviceOrder = .fixed p)
    (hpick : pickPending f s = some src) :
    ∃ before after, Priority.sources p = before ++ src :: after ∧ ∀ src' ∈ before, pending s src' = false := by
  rw [pickPending_of_fixed horder, List.find?_eq_some_iff_append] at hpick
  obtain ⟨-, before, after, hsplit, hbefore⟩ := hpick
  exact ⟨before, after, hsplit, by simpa using hbefore⟩

/-- Every source is the first of some priority. -/
theorem exists_sources_eq_cons (src : TickSource) : ∃ p rest, Priority.sources p = src :: rest := by
  cases src with
  | clk => exact ⟨.clkScanBtn, _, rfl⟩
  | scan => exact ⟨.scanClkBtn, _, rfl⟩
  | btn => exact ⟨.btnClkScan, _, rfl⟩

end

/-- Settles O47: the environment prefers a priority that begins with the source. -/
theorem anyPendingSourceCanBeServed : Obligations.AnyPendingSourceCanBeServed := by
  intro f s src hopen hpending
  obtain ⟨p, rest, hfirst⟩ := exists_sources_eq_cons src
  have hpick : pickPending { f with prefer := p } (latchStrobes f s) = some src := by
    rw [pickPending_of_anyPending (s := latchStrobes f s) hopen, hfirst]
    exact List.find?_cons_of_pos hpending
  exact ⟨p, frontEndStep_of_pick_some (f := { f with prefer := p }) hpick⟩

/-! ## The front-end: one step of the machine -/

/-- A front-end input is taken from the inputs, and the event of the word it delivers is served (R222). -/
theorem step_strobes {s : State} {f : FrontEndInput} {rest : List Input} (h : s.inputs = .strobes f :: rest) :
    step s = exec (decodeWord (frontEndStep f (s.setInputs rest)).1) (frontEndStep f (s.setInputs rest)).2 := by
  rw [step, h]

/-- The event a source calls for (R205), at the button levels of the input. -/
def sourceEvent (f : FrontEndInput) : TickSource → Instr
  | .clk => .clktick
  | .scan => .scantick
  | .btn => buttonEvent f.btnMin f.btnHr

/-- The word a source delivers is a word of its event (R222, R73). -/
theorem decodeWord_sourceWord (f : FrontEndInput) (src : TickSource) :
    decodeWord (sourceWord f src) = sourceEvent f src := by
  cases src with
  | clk | scan => rfl
  | btn => exact decodeWord_button f.btnMin f.btnHr

/-- Settles O46: the front-end's pick decides which event is served; neither latching nor clearing a bit makes a legal
state illegal, so the event completes. -/
theorem frontEndServesOnePendingSource : Obligations.FrontEndServesOnePendingSource := by
  intro f s u rest hlegal hinput hu
  have hu : latchStrobes f (s.setInputs rest) = u := hu.symm
  have hulegal : u.Legal := hu ▸ hlegal
  have hucfg : u.cfg = s.cfg := hu ▸ rfl
  constructor
  · intro hidle
    have hpick : pickPending f u = none := (pickPending_none f u).mpr hidle
    rw [step_strobes hinput, frontEndStep_of_pick_none (hu.symm ▸ hpick), hu]
    exact exec_of_legal hulegal .idle
  · rintro ⟨_, hpending⟩
    obtain ⟨src, hpick⟩ := exists_pickPending_of_pending f hpending
    have hserved : step s = exec (sourceEvent f src) (clearPending u src) := by
      rw [step_strobes hinput, frontEndStep_of_pick_some (hu.symm ▸ hpick), hu, decodeWord_sourceWord]
    exact ⟨src, clearPending u src, pickPending_some hpick, pending_clearPending u src, clearPending_frame u src,
      hserved, ⟨_, hserved.trans (exec_of_legal (hulegal.clearPending src) _)⟩,
      fun p horder => not_pending_before_pick (hucfg ▸ horder) hpick⟩

end Sys2Proof.Machine
end

section
/-! The reset and hazards' own statement (spec 70_reset_and_hazards.md): the colon at a minute boundary under an odd ROLLOVER
(R248). -/

namespace Sys2Proof.Machine

/-- Where the invariant holds, the colon entry is blank exactly at even counts (R44, R124). -/
theorem State.Inv.colon_blank_iff {s : State} (h : s.Inv) : bufRead s.buf 4 = 0x00 ↔ s.seconds % 2 = 0 := by
  obtain ⟨hconfig, -⟩ := h.legal
  rw [h.bufRead_colon, colonPattern_eq_zero_iff hconfig]

/-- A counter at its last value wraps to 0 (R100). -/
theorem incMod_of_last {bound c : Nat} (h : c = bound - 1) : incMod bound c = 0 :=
  if_pos ((wrapsAt_iff bound c).mpr h)

/-- Settles O27: CLKTICK keeps the invariant, and the counts on both sides of the boundary, ROLLOVER - 1 and 0, are even. -/
theorem oddRolloverDarkensTheColonTwice : Obligations.OddRolloverDarkensTheColonTwice := by
  intro s hinv hodd hlast
  have heven : s.seconds % 2 = 0 := by omega
  have hwrap : (handlerOf .clktick s).seconds = 0 := (tick_seconds s).trans (incMod_of_last hlast)
  exact ⟨hinv.colon_blank_iff.mpr heven, handlerOf .clktick s, exec_of_legal hinv.legal .clktick, hwrap,
    (hinv.handlerOf .clktick).colon_blank_iff.mpr (by rw [hwrap])⟩

end Sys2Proof.Machine
end
